-- ==== Sys2Proof/Word.lean ====
section
/-! DEFINITION. The words of PFIDC: bytes, byte sequences of a fixed length, five-bit symbols (00_scope.md R8, R9 and the
glossary). Every number of the block is unsigned (R8). -/

namespace Sys2Proof

/-- One byte, the unit of every host access (20_memory.md R51). -/
abbrev Byte := BitVec 8

/-- `B[0..n)`: a sequence of exactly `n` bytes, lowest index first (00_scope.md R9). -/
abbrev Bytes (n : Nat) := Vector Byte n

/-- A symbol: a 5-bit value 0 to 31 (00_scope.md, glossary). -/
abbrev Symbol := BitVec 5

end Sys2Proof
end

