-- ==== Sys2Proof/Machine/Alphabet.lean ====
section
/-! DEFINITION. The alphabet tables: fixed logic, not state (00_scope.md R13; 30_encoding.md R80 to R82). -/

namespace Sys2Proof.Machine

/-- The forward table, symbol by symbol: `0123456789abcdefghjkmnpqrstvwxyz` (30_encoding.md R80). -/
def chrTable : Vector Byte 32 := #v[
  0x30, 0x31, 0x32, 0x33, 0x34, 0x35, 0x36, 0x37, 0x38, 0x39, 0x61, 0x62, 0x63, 0x64, 0x65, 0x66,
  0x67, 0x68, 0x6A, 0x6B, 0x6D, 0x6E, 0x70, 0x71, 0x72, 0x73, 0x74, 0x76, 0x77, 0x78, 0x79, 0x7A]

/-- `chr(s)`: the lowercase ASCII byte of a symbol (30_encoding.md R80). -/
def chr (s : Symbol) : Byte := chrTable[s.toNat]'s.isLt

/-- `sym(c)`: the symbol of a byte, or `none` for a byte outside the alphabet (30_encoding.md R81, R82). -/
def sym (c : Byte) : Option Symbol :=
  match c.toNat with
  | 0x30 => some 0
  | 0x31 => some 1
  | 0x32 => some 2
  | 0x33 => some 3
  | 0x34 => some 4
  | 0x35 => some 5
  | 0x36 => some 6
  | 0x37 => some 7
  | 0x38 => some 8
  | 0x39 => some 9
  | 0x41 | 0x61 => some 10
  | 0x42 | 0x62 => some 11
  | 0x43 | 0x63 => some 12
  | 0x44 | 0x64 => some 13
  | 0x45 | 0x65 => some 14
  | 0x46 | 0x66 => some 15
  | 0x47 | 0x67 => some 16
  | 0x48 | 0x68 => some 17
  | 0x4A | 0x6A => some 18
  | 0x4B | 0x6B => some 19
  | 0x4D | 0x6D => some 20
  | 0x4E | 0x6E => some 21
  | 0x50 | 0x70 => some 22
  | 0x51 | 0x71 => some 23
  | 0x52 | 0x72 => some 24
  | 0x53 | 0x73 => some 25
  | 0x54 | 0x74 => some 26
  | 0x56 | 0x76 => some 27
  | 0x57 | 0x77 => some 28
  | 0x58 | 0x78 => some 29
  | 0x59 | 0x79 => some 30
  | 0x5A | 0x7A => some 31
  | _ => none

/-- A byte folded to lowercase: an uppercase letter plus 0x20, any other byte itself (30_encoding.md R81,
42_transcoder.md R156). -/
def lower (c : Byte) : Byte :=
  if 0x41 ≤ c.toNat ∧ c.toNat ≤ 0x5A then c + 0x20 else c

end Sys2Proof.Machine
end

