-- ==== Sys2Proof/Syntax.lean ====
section
/-! DEFINITION. The commands of PFIDC, one constructor per row of the opcode map (30_encoding.md R90). No command has an
operand field or an immediate (R91): its operands are fixed registers. -/

namespace Sys2Proof

/-- A command, selected by the byte written to CMD (30_encoding.md R90). -/
inductive Instr where
  /-- PACK, 41_field_packer.md R133 -/
  | pack
  /-- PACK_EXAMPLE, 41_field_packer.md R134 -/
  | packExample
  /-- PACK_ROOT, 41_field_packer.md R135 -/
  | packRoot
  /-- PACK_RELATED, 41_field_packer.md R136 -/
  | packRelated
  /-- RANDOM_PARTITION, 41_field_packer.md R137 -/
  | randomPartition
  /-- ENCODE, 42_transcoder.md R152 -/
  | encode
  /-- DECODE, 42_transcoder.md R153 -/
  | decode
  /-- ZERO, 42_transcoder.md R154 -/
  | zero
  /-- EXTRACT_PARTITION, 43_partition_extractor.md R170 -/
  | extractPartition
  /-- VALIDATE_TEXT, 44_validator.md R182 -/
  | validateText
  /-- VALIDATE_BINARY, 44_validator.md R183 -/
  | validateBinary
deriving DecidableEq, Repr

end Sys2Proof
end

