-- ==== Sys2Proof/Machine/HostSyntax.lean ====
section
/-! DEFINITION. What the outside world does to the block, as syntax: host transactions (30_encoding.md R95), the statements
of a host program and the assembler's pseudo-instructions (R96, R97), the pins of one clock edge (40_host_interface.md
R100), and the turns that order the events of the two agents (00_scope.md R12, 20_memory.md R60). -/

namespace Sys2Proof.Machine

/-- A host transaction: one byte read or one byte written (40_host_interface.md R101, R102). -/
inductive HostTx where
  /-- `RD a` -/
  | read (a : Byte)
  /-- `WR a, v` -/
  | write (a v : Byte)
deriving DecidableEq, Repr

/-- A statement of a host program after assembly (30_encoding.md R96): a transaction, or the host-side branch whose label
is the index of the statement it names. -/
inductive HostStmt where
  /-- `WR a, v` or `RD a` -/
  | tx (t : HostTx)
  /-- `BNZ v & mask, target`: no transaction, the host's own control flow -/
  | bnz (mask : Byte) (target : Nat)
deriving DecidableEq, Repr

/-- A line of a host program as written (30_encoding.md R96, R97). -/
inductive AsmLine where
  /-- `WR a, v` -/
  | wr (a v : Byte)
  /-- `RD a` -/
  | rd (a : Byte)
  /-- `BNZ v & mask, label` -/
  | bnz (mask : Byte) (label : String)
  /-- `name:` -/
  | label (name : String)
  /-- `CMD mn` -/
  | cmd (mn : Instr)
  /-- `POLL` -/
  | poll
  /-- `EXEC mn` -/
  | exec (mn : Instr)
  /-- `WRB base, b0 b1 …` -/
  | wrb (base : Byte) (bs : List Byte)
  /-- `RDB base, n` -/
  | rdb (base : Byte) (n : Nat)
  /-- `WRTXT "s"`, the string by its ASCII bytes -/
  | wrtxt (s : List Byte)
  /-- `WRBIN b0 … b19` -/
  | wrbin (b : Bytes 20)
  /-- `WR64 base, v` -/
  | wr64 (base : Byte) (v : BitVec 64)
  /-- `CLROVR` -/
  | clrovr
deriving DecidableEq, Repr

/-- The input pins at one rising clk edge (40_host_interface.md R100). -/
structure Pins where
  /-- synchronous reset, active high -/
  rst : Bool
  /-- a transaction this cycle -/
  sel : Bool
  /-- with `sel`: a write, else a read -/
  we : Bool
  addr : Byte
  wdata : Byte
deriving DecidableEq, Repr

/-- Which agent makes the next event of the one total order (20_memory.md R60, R61). -/
inductive Turn where
  /-- the host program's next statement -/
  | host
  /-- the engine: its completion step, where it is enabled (40_host_interface.md R104) -/
  | engine
  /-- a clock edge driven from outside the host program: a reset (R109 row H-10), an idle cycle, or a transaction of
  another caller of the same block (60_exceptions.md R222) -/
  | pins (p : Pins)
deriving DecidableEq, Repr

/-- The host as an agent: its program, the index of its next statement, and the byte its last read returned, which BNZ
tests (30_encoding.md R96). None of it is state of the block. -/
structure HostAgent where
  program : List HostStmt
  pc : Nat
  last : Byte
deriving DecidableEq, Repr

end Sys2Proof.Machine
end

