-- ==== Sys2Proof/WellFormed.lean ====
section
/-! DEFINITION. Which terms of the syntax are well-formed. A command has no operand, so none of its terms is ill-formed
(30_encoding.md R91, R92); host transaction words, assembler lines and assembled host programs have checks. -/

namespace Sys2Proof

/-- Every command is well-formed: it has no field that could be out of range (30_encoding.md R91). -/
def Instr.wellFormed : Instr → Bool
  | .pack | .packExample | .packRoot | .packRelated | .randomPartition => true
  | .encode | .decode | .zero => true
  | .extractPartition => true
  | .validateText | .validateBinary => true

namespace Machine

/-- A HOSTTX word has DATA = 0x00 when W = 0 (30_encoding.md R95). -/
def hostTxWordWellFormed (w : BitVec 17) : Bool :=
  w.getLsbD 16 || w.extractLsb' 0 8 == 0

/-- The limits 30_encoding.md R97 puts on a line: a text of at most 32 characters, and runs of addresses that stay in the
256-byte space of 20_memory.md R50 (DESIGN CHOICE: notes/assumptions/15.md). -/
def AsmLine.wellFormed : AsmLine → Bool
  | .wr _ _ | .rd _ | .bnz _ _ | .label _ | .cmd _ | .poll | .exec _ | .wrbin _ | .clrovr => true
  | .wrb base bs => decide (base.toNat + bs.length ≤ 256)
  | .rdb base n => decide (base.toNat + n ≤ 256)
  | .wrtxt s => decide (s.length ≤ 32)
  | .wr64 base _ => decide (base.toNat + 8 ≤ 256)

/-- Every branch of an assembled program goes to a statement of it or to its end (30_encoding.md R96). -/
def hostProgramWellFormed (p : List HostStmt) : Bool :=
  p.all fun
    | .tx _ => true
    | .bnz _ target => decide (target ≤ p.length)

end Machine
end Sys2Proof
end

