-- ==== Sys2Proof/Decode.lean ====
section
/-! DEFINITION. Decoding and encoding of the command byte CMD8 (30_encoding.md R90, R93, R94) and of the host transaction
word HOSTTX (R95). -/

namespace Sys2Proof

/-- Why a byte is no command (30_encoding.md R93). -/
inductive DecodeError where
  /-- one of the 245 illegal command bytes. Not a stop of the machine: the engine completes it as ILLEGAL_COMMAND
  (60_exceptions.md R204). -/
  | illegalCommand (byte : Byte)
deriving DecidableEq, Repr

/-- The command of a byte: the byte is matched whole (30_encoding.md R90), and every byte not listed is illegal (R93). -/
def decode (b : Byte) : Except DecodeError Instr :=
  match b.toNat with
  | 0x01 => .ok .pack
  | 0x02 => .ok .packExample
  | 0x03 => .ok .packRoot
  | 0x04 => .ok .packRelated
  | 0x05 => .ok .randomPartition
  | 0x10 => .ok .encode
  | 0x11 => .ok .decode
  | 0x12 => .ok .zero
  | 0x20 => .ok .extractPartition
  | 0x30 => .ok .validateText
  | 0x31 => .ok .validateBinary
  | _ => .error (.illegalCommand b)

/-- `opcode(mn)`: the byte of a command (30_encoding.md R90). -/
def encode : Instr → Byte
  | .pack => 0x01
  | .packExample => 0x02
  | .packRoot => 0x03
  | .packRelated => 0x04
  | .randomPartition => 0x05
  | .encode => 0x10
  | .decode => 0x11
  | .zero => 0x12
  | .extractPartition => 0x20
  | .validateText => 0x30
  | .validateBinary => 0x31

/-- The byte an instruction word of `nbits` bits puts in OP: its bits 7..0, every bit from `nbits` on being zero. -/
def commandByteOfWord (nbits w : Nat) : Byte := BitVec.ofNat 8 (w % 2 ^ nbits)

/-- The instruction the decoder reads from a table word. A command is exactly one byte (30_encoding.md R94), so a word
with a bit above bit 7 is none. -/
def decodeTableWord (nbits w : Nat) : Option Instr :=
  if w % 2 ^ nbits < 256 then (decode (commandByteOfWord nbits w)).toOption else none

namespace Machine

/-- HOSTTX of a transaction: `W ‖ ADDR ‖ DATA` with DATA = 0x00 for a read (30_encoding.md R95). -/
def encodeHostTx : HostTx → BitVec 17
  | .read a => 0#1 ++ a ++ 0#8
  | .write a v => 1#1 ++ a ++ v

/-- The transaction of a HOSTTX word; a read whose DATA is not 0x00 is no HOSTTX word (30_encoding.md R95;
DEDUCED, safe: notes/assumptions/7.md). -/
def decodeHostTx (w : BitVec 17) : Option HostTx :=
  if hostTxWordWellFormed w then
    if w.getLsbD 16 then some (.write (w.extractLsb' 8 8) (w.extractLsb' 0 8)) else some (.read (w.extractLsb' 8 8))
  else none

end Machine
end Sys2Proof
end

