-- ==== Sys2Proof/Machine/Errors.lean ====
section
/-! DEFINITION. Error kinds, causes and the outcome of a command (60_exceptions.md R200 to R205; 40_host_interface.md
R105). An error is a value the host reads, not a trap (R209). -/

namespace Sys2Proof.Machine

/-- The error kinds (60_exceptions.md R201). -/
inductive ErrKind where
  | invalidBinaryInput
  | invalidTextInput
  | invalidPartition
  | invalidTimestamp
  | illegalCommand
deriving DecidableEq, Repr

/-- The failed checks (60_exceptions.md R202). -/
inductive ErrCause where
  | length
  | firstChar
  | alphabet
  | prefixRange
  | range
  | opcode
deriving DecidableEq, Repr

/-- The output register a successful command writes, whole (30_encoding.md R91; 40_host_interface.md R105). -/
inductive Writes where
  | none
  | binOut (b : Bytes 20)
  | partOut (b : Bytes 4)
  | txtOut (b : Bytes 32)
deriving DecidableEq, Repr

/-- What Exec answers (40_host_interface.md R105): `ok` is `succeed(r)` with its writes, `fail` is
`raise Kind(cause, pos)` (60_exceptions.md R205). -/
inductive CmdOutcome where
  | ok (result : Bool) (writes : Writes)
  | fail (kind : ErrKind) (cause : ErrCause) (pos : Byte)
deriving DecidableEq, Repr

/-- The ERRCODE of a kind; 0 is no failure (60_exceptions.md R201). -/
def errCodeOf : ErrKind → Byte
  | .invalidBinaryInput => 1
  | .invalidTextInput => 2
  | .invalidPartition => 3
  | .invalidTimestamp => 4
  | .illegalCommand => 5

/-- The ERRCAUSE of a failed check; 0 is no failure (60_exceptions.md R202). -/
def errCauseOf : ErrCause → Byte
  | .length => 1
  | .firstChar => 2
  | .alphabet => 3
  | .prefixRange => 4
  | .range => 5
  | .opcode => 6

end Sys2Proof.Machine
end

