-- ==== Sys2Proof/Config.lean ====
section
/-! DEFINITION. What is fixed for the machine (00_scope.md R6, R13; the field widths of R6 are the widths of the types), what the platform fixes (R7), and the one free value
of the model (40_host_interface.md R107). -/

namespace Sys2Proof

/-- Bytes of a BinaryId (00_scope.md R6). -/
def Config.binBytes : Nat := 20
/-- Characters of a TextId (00_scope.md R6). -/
def Config.txtChars : Nat := 32
/-- Bits of one symbol (00_scope.md R6). -/
def Config.symBits : Nat := 5
/-- Greatest symbol a TextId may begin with (00_scope.md R6, FIRST_CHAR_MAX). -/
def Config.firstCharMax : Nat := 7
/-- EXAMPLE_PARTITION (00_scope.md R6). -/
def Config.examplePartition : BitVec 30 := 123456789
/-- EXAMPLE_TIMESTAMP (00_scope.md R6). -/
def Config.exampleTimestamp : BitVec 48 := 1234567890000

/-- The byte that the n-th read of an output register made while BUSY = 1 returns: "a fresh draw, under no law,
independent for each read" (40_host_interface.md R107, 93_implementation_defined.md K-2). A FREE VALUE (DESIGN CHOICE in its
form): it has no body, so nothing can be proved of any draw (notes/assumptions/1.md). -/
opaque Config.outputDraw : Nat → Byte

/-- PFIDC_BASE, the platform address of register-space offset 0x00: an OPEN parameter, read by no rule and by no step
(00_scope.md R7, 20_memory.md R58, 93_implementation_defined.md K-4). -/
opaque Config.pfidcBase : Nat

end Sys2Proof
end

