-- ==== Sys2Proof/Machine/State.lean ====
section
/-! DEFINITION. The state of PFIDC (10_state.md R20, and the read-data register of 40_host_interface.md R100), the host as
the second agent (00_scope.md R12), the order in which events come (20_memory.md R60), and the state after reset
(70_reset_and_hazards.md R230). -/

namespace Sys2Proof.Machine

/-- Why the machine stops with a fault. It has NO constructor: no transaction faults (20_memory.md R52), no error, illegal
opcode or dropped write is a trap (60_exceptions.md R209), and the block never halts because of an error (R200). Nobody
raises one. Safe or unsafe does not arise. -/
inductive Fault where
deriving DecidableEq, Repr

/-- Why the model has no meaning for a step. -/
inductive Refusal where
  /-- Raised by an arm of `exec` for an instruction without a meaning. Safe: nothing is claimed of it. No arm raises it:
  every command has its meaning. -/
  | notModelled (mnemonic : String)
deriving DecidableEq, Repr

/-- The operand registers, which only host writes change (10_state.md R45). -/
structure Operands where
  /-- TLEN, 10_state.md R32 -/
  tlen : Byte
  /-- BLEN, 10_state.md R33 -/
  blen : Byte
  /-- TS_IN, 10_state.md R34 -/
  tsIn : Bytes 8
  /-- PART_IN, 10_state.md R35 -/
  partIn : Bytes 8
  /-- RPART_IN, 10_state.md R36 -/
  rpartIn : Bytes 4
  /-- RAND_IN, 10_state.md R37 -/
  randIn : Bytes 10
  /-- BIN_IN, 10_state.md R38 -/
  binIn : Bytes 20
  /-- TXT_IN, 10_state.md R39 -/
  txtIn : Bytes 32
deriving DecidableEq, Repr

/-- The whole state: `op` to `txtOut` are the components of 10_state.md R20 and nothing else, `rdata` is the block's
read-data output register (40_host_interface.md R100), and `draws`, `host` and `schedule` are the MODEL's own. -/
structure State where
  /-- OP, read back through CMD (10_state.md R22) -/
  op : Byte
  /-- STATUS.BUSY (R24) -/
  busy : Bool
  /-- STATUS.ERR (R25) -/
  err : Bool
  /-- STATUS.RESULT (R26) -/
  result : Bool
  /-- STATUS.OVR (R27) -/
  ovr : Bool
  /-- ERRCODE (R29) -/
  errcode : Byte
  /-- ERRCAUSE (R30) -/
  errcause : Byte
  /-- ERRPOS (R31) -/
  errpos : Byte
  /-- the operand registers (R32 to R39) -/
  operands : Operands
  /-- BIN_OUT (R40) -/
  binOut : Bytes 20
  /-- PART_OUT (R41) -/
  partOut : Bytes 4
  /-- TXT_OUT (R42) -/
  txtOut : Bytes 32
  /-- the byte driven on rdata since the last read (40_host_interface.md R100); DEDUCED that it is state, safe for R20's
  registers (notes/assumptions/6.md) -/
  rdata : Byte
  /-- MODEL, DESIGN CHOICE: how many draws have been made (40_host_interface.md R107; notes/assumptions/1.md, unsafe for
  claims that compare two runs) -/
  draws : Nat
  /-- MODEL, DESIGN CHOICE: the host agent (00_scope.md R12; notes/assumptions/4.md, its reset contents are unsafe) -/
  host : HostAgent
  /-- MODEL, DESIGN CHOICE: whose events come next (20_memory.md R61; notes/assumptions/2.md, unsafe only for runs with an
  empty schedule) -/
  schedule : List Turn
deriving DecidableEq, Repr

/-- The operand registers after reset, all 0 (10_state.md R47). -/
def Operands.reset : Operands where
  tlen := 0
  blen := 0
  tsIn := Vector.replicate 8 0
  partIn := Vector.replicate 8 0
  rpartIn := Vector.replicate 4 0
  randIn := Vector.replicate 10 0
  binIn := Vector.replicate 20 0
  txtIn := Vector.replicate 32 0

/-- The machine right after reset: every register, field and array byte 0 and rdata 0x00 (70_reset_and_hazards.md R230).
The host has no program and nothing is scheduled (notes/assumptions/3.md). -/
def State.reset : State where
  op := 0
  busy := false
  err := false
  result := false
  ovr := false
  errcode := 0
  errcause := 0
  errpos := 0
  operands := Operands.reset
  binOut := Vector.replicate 20 0
  partOut := Vector.replicate 4 0
  txtOut := Vector.replicate 32 0
  rdata := 0
  draws := 0
  host := ⟨[], 0, 0⟩
  schedule := []

end Sys2Proof.Machine
end

