-- ==== Sys2Proof/Machine/Flags.lean ====
section
/-! DEFINITION. The STATUS register: how it reads and what a write to it does (10_state.md R23 to R28), and the values a
completion gives ERR and RESULT (R25, R26). -/

namespace Sys2Proof.Machine

/-- What STATUS reads as: `0000 ‖ OVR ‖ RESULT ‖ ERR ‖ BUSY` (10_state.md R23, R28). -/
def statusByte (s : State) : Byte :=
  0#4 ++ BitVec.ofBool s.ovr ++ BitVec.ofBool s.result ++ BitVec.ofBool s.err ++ BitVec.ofBool s.busy

/-- OVR after a write of `v` to STATUS while idle: bit 3 is write-one-to-clear, every other bit is ignored
(10_state.md R27, R28). -/
def ovrAfterStatusWrite (ovr : Bool) (v : Byte) : Bool :=
  if v.getLsbD 3 then false else ovr

/-- ERR after completion: 1 iff the command reached a `raise` (10_state.md R25). -/
def errAfter : CmdOutcome → Bool
  | .ok _ _ => false
  | .fail _ _ _ => true

/-- RESULT after completion: the result `succeed` was given, 0 after a failure (10_state.md R26). -/
def resultAfter : CmdOutcome → Bool
  | .ok r _ => r
  | .fail _ _ _ => false

/-- ERRCODE after completion (10_state.md R29). -/
def errcodeAfter : CmdOutcome → Byte
  | .ok _ _ => 0
  | .fail kind _ _ => errCodeOf kind

/-- ERRCAUSE after completion (10_state.md R30). -/
def errcauseAfter : CmdOutcome → Byte
  | .ok _ _ => 0
  | .fail _ cause _ => errCauseOf cause

/-- ERRPOS after completion (10_state.md R31). -/
def errposAfter : CmdOutcome → Byte
  | .ok _ _ => 0
  | .fail _ _ pos => pos

end Sys2Proof.Machine
end

