-- ==== Sys2Proof/Machine/Bytes.lean ====
section
/-! DEFINITION. Big-endian byte sequences (00_scope.md R9) and the bit cursor (42_transcoder.md R150). -/

namespace Sys2Proof.Machine

/-- `be(B[0..n))`: the unsigned big-endian number of a byte sequence (00_scope.md R9). -/
def be (bs : List Byte) : Nat :=
  bs.foldl (fun acc b => acc * 256 + b.toNat) 0

/-- `bytes_be_n(v)`: byte k is `v[8(n−1−k)+7 : 8(n−1−k)]` (00_scope.md R9, where it is defined for `v < 2^(8n)`). -/
def bytesBe (n : Nat) (v : Nat) : Bytes n :=
  Vector.ofFn fun k => BitVec.ofNat 8 (v / 2 ^ (8 * (n - 1 - k.val)))

/-- `GetBit(B, o)`: stream offset `o` counts from the most significant bit (42_transcoder.md R150, 00_scope.md R10). An
offset past the end, which no rule uses, reads as 0. -/
def getBit {n : Nat} (b : Bytes n) (o : Nat) : Bool :=
  if h : o / 8 < n then b[o / 8].getLsbD (7 - o % 8) else false

/-- `ReadBits(B, o, n)`, the first bit read the most significant of the result (42_transcoder.md R150). -/
def readBits {n : Nat} (b : Bytes n) (o len : Nat) : Nat :=
  (List.range len).foldl (fun acc i => acc * 2 + (getBit b (o + i)).toNat) 0

/-- One bit of a byte replaced. -/
def setBitOfByte (x : Byte) (i : Nat) (v : Bool) : Byte :=
  if v then x ||| BitVec.twoPow 8 i else x &&& ~~~ BitVec.twoPow 8 i

/-- `B[o / 8][7 − (o % 8)] <- v` (42_transcoder.md R150). -/
def setBit {n : Nat} (b : Bytes n) (o : Nat) (v : Bool) : Bytes n :=
  if h : o / 8 < n then b.set (o / 8) (setBitOfByte b[o / 8] (7 - o % 8) v) else b

/-- `WriteBits(B, o, n, v)` (42_transcoder.md R150). -/
def writeBits {n : Nat} (b : Bytes n) (o len v : Nat) : Bytes n :=
  (List.range len).foldl (fun acc i => setBit acc (o + i) (v.testBit (len - 1 - i))) b

end Sys2Proof.Machine
end

