-- ==== Sys2Proof/Machine/Operands.lean ====
section
/-! DEFINITION. The operand registers read as numbers and their domains (10_state.md R34, R35; 41_field_packer.md R130,
R132), and how a host presents lengths, characters and integers to the block (40_host_interface.md R110 to R113). -/

namespace Sys2Proof.Machine

/-- `T64 = be(TS_IN[0..8))` (10_state.md R34). -/
def tsOperand (o : Operands) : BitVec 64 := BitVec.ofNat 64 (be o.tsIn.toList)

/-- `P64 = be(PART_IN[0..8))` (10_state.md R35). -/
def partOperand (o : Operands) : BitVec 64 := BitVec.ofNat 64 (be o.partIn.toList)

/-- InTsDomain (41_field_packer.md R130): `T64[63:48] = 0`. -/
def inTsDomain (t : BitVec 64) : Bool := t.extractLsb' 48 16 == 0

/-- InPartDomain (41_field_packer.md R130): `P64[63:30] = 0`. -/
def inPartDomain (p : BitVec 64) : Bool := p.extractLsb' 30 34 == 0

/-- `MaskPart(b) = be(b[0..4)) & 0x3FFFFFFF` (41_field_packer.md R132). -/
def maskPart (b : Bytes 4) : BitVec 30 :=
  (BitVec.ofNat 32 (be b.toList) &&& 0x3FFFFFFF#32).setWidth 30

/-- TLEN value `v` presents a text candidate of `len` characters (40_host_interface.md R110): the length itself, or, past
255, any value but 32. -/
def presentsTextLength (len : Nat) (v : Byte) : Bool :=
  if len ≤ 255 then v.toNat == len else v != 32

/-- BLEN value `v` presents a binary candidate of `len` bytes (40_host_interface.md R111). -/
def presentsBinaryLength (len : Nat) (v : Byte) : Bool :=
  if len ≤ 255 then v.toNat == len else v != 20

/-- Byte `v` presents the character of code `c`: its ASCII byte, or, outside ASCII, any byte from 0x80
(40_host_interface.md R112). -/
def presentsChar (c : Nat) (v : Byte) : Bool :=
  if c < 0x80 then v.toNat == c else decide (0x80 ≤ v.toNat)

/-- The 8 bytes a host writes into TS_IN or PART_IN for an integer (40_host_interface.md R113). -/
def presentInteger (v : Int) : Bytes 8 :=
  if 0 ≤ v ∧ v < 2 ^ 64 then bytesBe 8 v.toNat
  else if -2 ^ 63 ≤ v ∧ v < 0 then bytesBe 8 (2 ^ 64 + v).toNat
  else Vector.replicate 8 0xFF

end Sys2Proof.Machine
end

