-- ==== Sys2Proof/Machine/Ops.lean ====
section
/-! DEFINITION. The named operations on the state: the address map (10_state.md R21), host reads and writes
(40_host_interface.md R101, R102, R108), command issue (R103), completion, which is where a command succeeds or raises
(R105; 60_exceptions.md R205), reset (70_reset_and_hazards.md R230) and the pins of one clock edge (R100). -/

namespace Sys2Proof.Machine

/-- What stands at an address of the register space (10_state.md R21). -/
inductive Location where
  | cmd | status | errcode | errcause | errpos | tlen | blen
  | tsIn (k : Fin 8) | partIn (k : Fin 8) | rpartIn (k : Fin 4) | randIn (k : Fin 10)
  | binIn (k : Fin 20) | txtIn (k : Fin 32)
  | binOut (k : Fin 20) | partOut (k : Fin 4) | txtOut (k : Fin 32)
  | reserved
deriving DecidableEq, Repr

/-- The fixed address map (10_state.md R21; 20_memory.md R58): element k of an array at base b is at b + k. -/
def locate (a : Byte) : Location :=
  let n := a.toNat
  if n = 0x00 then .cmd
  else if n = 0x01 then .status
  else if n = 0x02 then .errcode
  else if n = 0x03 then .errcause
  else if n = 0x04 then .errpos
  else if n = 0x05 then .tlen
  else if n = 0x06 then .blen
  else if h : 0x08 ≤ n ∧ n ≤ 0x0F then .tsIn ⟨n - 0x08, by omega⟩
  else if h : 0x10 ≤ n ∧ n ≤ 0x17 then .partIn ⟨n - 0x10, by omega⟩
  else if h : 0x18 ≤ n ∧ n ≤ 0x1B then .rpartIn ⟨n - 0x18, by omega⟩
  else if h : 0x20 ≤ n ∧ n ≤ 0x29 then .randIn ⟨n - 0x20, by omega⟩
  else if h : 0x30 ≤ n ∧ n ≤ 0x43 then .binIn ⟨n - 0x30, by omega⟩
  else if h : 0x50 ≤ n ∧ n ≤ 0x6F then .txtIn ⟨n - 0x50, by omega⟩
  else if h : 0x70 ≤ n ∧ n ≤ 0x83 then .binOut ⟨n - 0x70, by omega⟩
  else if h : 0x84 ≤ n ∧ n ≤ 0x87 then .partOut ⟨n - 0x84, by omega⟩
  else if h : 0x90 ≤ n ∧ n ≤ 0xAF then .txtOut ⟨n - 0x90, by omega⟩
  else .reserved

/-- An output register, whose reads while BUSY = 1 are draws (40_host_interface.md R107). -/
def Location.isOutput : Location → Bool
  | .binOut _ | .partOut _ | .txtOut _ => true
  | _ => false

/-- The register byte of a location, whatever BUSY is. -/
def registerByte (s : State) : Location → Byte
  | .cmd => s.op
  | .status => statusByte s
  | .errcode => s.errcode
  | .errcause => s.errcause
  | .errpos => s.errpos
  | .tlen => s.operands.tlen
  | .blen => s.operands.blen
  | .tsIn k => s.operands.tsIn[k]
  | .partIn k => s.operands.partIn[k]
  | .rpartIn k => s.operands.rpartIn[k]
  | .randIn k => s.operands.randIn[k]
  | .binIn k => s.operands.binIn[k]
  | .txtIn k => s.operands.txtIn[k]
  | .binOut k => s.binOut[k]
  | .partOut k => s.partOut[k]
  | .txtOut k => s.txtOut[k]
  | .reserved => 0x00

/-- A read of this address is a draw in this state (40_host_interface.md R107). -/
def readIsDraw (s : State) (a : Byte) : Bool := s.busy && (locate a).isOutput

/-- `ReadByte(s, a)` (40_host_interface.md R108). -/
def readByte (s : State) (a : Byte) : Byte :=
  if readIsDraw s a then Config.outputDraw s.draws else registerByte s (locate a)

/-- `MemRead(a, 1)` (40_host_interface.md R101): the byte, and the state after, in which only the model's count of draws
can differ. -/
def memRead (s : State) (a : Byte) : Byte × State :=
  (readByte s a, if readIsDraw s a then { s with draws := s.draws + 1 } else s)

/-- `Issue(v)` (40_host_interface.md R103). -/
def issue (s : State) (v : Byte) : State :=
  { s with op := v, busy := true, err := false, result := false, errcode := 0, errcause := 0, errpos := 0 }

/-- The operand registers with `v` written at a location; a location that is no operand register leaves them as they
are (40_host_interface.md R102). -/
def writeOperand (o : Operands) (l : Location) (v : Byte) : Operands :=
  match l with
  | .tlen => { o with tlen := v }
  | .blen => { o with blen := v }
  | .tsIn k => { o with tsIn := o.tsIn.set k v }
  | .partIn k => { o with partIn := o.partIn.set k v }
  | .rpartIn k => { o with rpartIn := o.rpartIn.set k v }
  | .randIn k => { o with randIn := o.randIn.set k v }
  | .binIn k => { o with binIn := o.binIn.set k v }
  | .txtIn k => { o with txtIn := o.txtIn.set k v }
  | .cmd | .status | .errcode | .errcause | .errpos | .binOut _ | .partOut _ | .txtOut _ | .reserved => o

/-- `MemWrite(a, 1, v)` (40_host_interface.md R102): dropped with OVR while BUSY = 1, else a CMD write issues, a STATUS
write may clear OVR, an operand write stores, and any other write is ignored. -/
def memWrite (s : State) (a v : Byte) : State :=
  if s.busy then { s with ovr := true }
  else
    match locate a with
    | .cmd => issue s v
    | .status => { s with ovr := ovrAfterStatusWrite s.ovr v }
    | l => { s with operands := writeOperand s.operands l v }

/-- The output registers after a successful command's writes, each whole (40_host_interface.md R105). -/
def applyWrites (s : State) : Writes → State
  | .none => s
  | .binOut b => { s with binOut := b }
  | .partOut b => { s with partOut := b }
  | .txtOut b => { s with txtOut := b }

/-- The output writes of an outcome: a failure writes none (60_exceptions.md R205). -/
def CmdOutcome.writes : CmdOutcome → Writes
  | .ok _ w => w
  | .fail _ _ _ => .none

/-- `Complete()` for the outcome of Exec (40_host_interface.md R105): the writes, the error record, BUSY <- 0. -/
def complete (o : CmdOutcome) (s : State) : State :=
  { applyWrites s o.writes with
    err := errAfter o, result := resultAfter o, errcode := errcodeAfter o, errcause := errcauseAfter o
    errpos := errposAfter o, busy := false }

/-- What Exec answers for a byte that is no command (60_exceptions.md R204). -/
def illegalOutcome : CmdOutcome := .fail .illegalCommand .opcode 0

/-- Reset of the block (70_reset_and_hazards.md R230): every register and rdata 0, a command in flight abandoned. The host
agent, the schedule and the count of draws are not the block's. -/
def resetBlock (s : State) : State :=
  { State.reset with draws := s.draws, host := s.host, schedule := s.schedule }

/-- A host read as the block performs it: the byte goes to rdata (40_host_interface.md R100). -/
def busRead (s : State) (a : Byte) : State :=
  let r := memRead s a
  { r.2 with rdata := r.1 }

/-- One rising clk edge (40_host_interface.md R100): reset wins and the transaction is ignored; otherwise at most one
transaction; nothing with `sel` = 0. -/
def clockEdge (p : Pins) (s : State) : State :=
  if p.rst then resetBlock s
  else if p.sel then (if p.we then memWrite s p.addr p.wdata else busRead s p.addr)
  else s

/-- The `busy` output pin (40_host_interface.md R115). -/
def busyPin (s : State) : Bool := s.busy

/-- The state in which the engine's next event completes the command of an instruction word: OP holds its byte, BUSY is 1
and the engine has the next turn (Step.lean's withFetchWord). -/
def placeCommand (s : State) (nbits w : Nat) : State :=
  { s with op := commandByteOfWord nbits w, busy := true, schedule := .engine :: s.schedule }

/-- The platform address of a register-space address (20_memory.md R58): applied, if at all, before a transaction reaches
the block. -/
def platformAddress (a : Byte) : Nat := Config.pfidcBase + a.toNat

end Sys2Proof.Machine
end

