-- ==== Sys2Proof/Machine/Validator.lean ====
section
/-! DEFINITION. The text check and the validator commands (44_validator.md). -/

namespace Sys2Proof.Machine

/-- The result of the text check: `Ok` or `Bad(cause, pos)` (44_validator.md R180). -/
inductive TextVerdict where
  | ok
  | bad (cause : ErrCause) (pos : Byte)
deriving DecidableEq, Repr

/-- A first character in `0`–`7` (30_encoding.md R77; 44_validator.md R180). -/
def firstCharOk (c : Byte) : Bool := decide (0x30 ≤ c.toNat ∧ c.toNat ≤ 0x37)

/-- The lowest position 1 to 31 whose character is outside the alphabet (44_validator.md R180). -/
def firstBadPosition (s : Bytes 32) : Option (Fin 32) :=
  ((List.finRange 31).map Fin.succ).find? fun k => (sym s[k]).isNone

/-- `TextCheck()` (44_validator.md R180): LENGTH, then FIRST_CHAR, then ALPHABET at the lowest failing position. -/
def textCheck (o : Operands) : TextVerdict :=
  if o.tlen.toNat ≠ Config.txtChars then .bad .length 0
  else if !firstCharOk o.txtIn[0] then .bad .firstChar 0
  else
    match firstBadPosition o.txtIn with
    | some k => .bad .alphabet (BitVec.ofNat 8 k.val)
    | none => .ok

/-- A command that reads TXT_IN as a TextId checks it first and raises InvalidTextInput with the check's cause and
position (44_validator.md R184). -/
def gated (o : Operands) (cmd : CmdOutcome) : CmdOutcome :=
  match textCheck o with
  | .ok => cmd
  | .bad cause pos => .fail .invalidTextInput cause pos

/-- ValidateTextCmd (44_validator.md R182): never raises, writes no output. -/
def validateTextCmd (o : Operands) : CmdOutcome := .ok (textCheck o == .ok) .none

/-- ValidateBinaryCmd (44_validator.md R183): never raises; the bytes of BIN_IN are not read. -/
def validateBinaryCmd (o : Operands) : CmdOutcome := .ok (o.blen.toNat == Config.binBytes) .none

/-- VALIDATE_TEXT (44_validator.md R182). -/
def execValidateText (s : State) : Host.Outcome State Fault Refusal :=
  .next (complete (validateTextCmd s.operands) s)

/-- VALIDATE_BINARY (44_validator.md R183). -/
def execValidateBinary (s : State) : Host.Outcome State Fault Refusal :=
  .next (complete (validateBinaryCmd s.operands) s)

end Sys2Proof.Machine
end

