-- ==== Sys2Proof/Machine/Transcoder.lean ====
section
/-! DEFINITION. The binary and text transcoder commands (42_transcoder.md). -/

namespace Sys2Proof.Machine

/-- The symbol of character k of a text that passed the text check. That check leaves no character without a symbol
(Laws, textCheck_ok_sym), so the default (DEDUCED, safe: notes/assumptions/8.md) is never used where 42_transcoder.md R151 and 43_partition_extractor.md R171
define a result. -/
def symbolAt (s : Bytes 32) (k : Fin 32) : Symbol := (sym s[k]).getD 0

/-- `EncodeText(B)`: character k is `chr(ReadBits(B, 5k, 5))` (42_transcoder.md R151). -/
def encodeText (b : Bytes 20) : Bytes 32 :=
  Vector.ofFn fun k => chr (BitVec.ofNat 5 (readBits b (5 * k.val) 5))

/-- `DecodeBin(S)`: the symbols written one after the other through the bit cursor (42_transcoder.md R151). -/
def decodeBin (s : Bytes 32) : Bytes 20 :=
  (List.finRange 32).foldl (fun b k => writeBits b (5 * k.val) 5 (symbolAt s k).toNat) (Vector.replicate 20 0)

/-- The zero value, a named constant: 0x30 × 32 (30_encoding.md R79; 42_transcoder.md R154). -/
def zeroText : Bytes 32 := Vector.replicate 32 0x30

/-- EncodeCmd (42_transcoder.md R152): LENGTH, then the PREFIX self-check. -/
def encodeCmd (o : Operands) : CmdOutcome :=
  if o.blen.toNat ≠ Config.binBytes then .fail .invalidBinaryInput .length 0
  else if readBits o.binIn 0 Config.symBits > Config.firstCharMax then .fail .invalidBinaryInput .prefixRange 0
  else .ok true (.txtOut (encodeText o.binIn))

/-- DecodeCmd (42_transcoder.md R153). -/
def decodeCmd (o : Operands) : CmdOutcome := gated o (.ok true (.binOut (decodeBin o.txtIn)))

/-- ZeroCmd (42_transcoder.md R154): reads no operand. -/
def zeroCmd : CmdOutcome := .ok true (.txtOut zeroText)

/-- ENCODE (42_transcoder.md R152). -/
def execEncode (s : State) : Host.Outcome State Fault Refusal := .next (complete (encodeCmd s.operands) s)

/-- DECODE (42_transcoder.md R153). -/
def execDecode (s : State) : Host.Outcome State Fault Refusal := .next (complete (decodeCmd s.operands) s)

/-- ZERO (42_transcoder.md R154). -/
def execZero (s : State) : Host.Outcome State Fault Refusal := .next (complete zeroCmd s)

end Sys2Proof.Machine
end

