-- ==== Sys2Proof/Machine/Extractor.lean ====
section
/-! DEFINITION. The partition extractor command (43_partition_extractor.md). -/

namespace Sys2Proof.Machine

/-- `PartitionOfText(S)`, the symbol path: symbols 10 to 15 concatenated, most significant first
(43_partition_extractor.md R171; 92_eei_decisions.md D17). -/
def partitionOfText (s : Bytes 32) : BitVec 30 :=
  symbolAt s 10 ++ symbolAt s 11 ++ symbolAt s 12 ++ symbolAt s 13 ++ symbolAt s 14 ++ symbolAt s 15

/-- `bytes_be_4(zext_32(p))`, the form of PART_OUT (43_partition_extractor.md R170; 10_state.md R41). -/
def partitionBytes (p : BitVec 30) : Bytes 4 := bytesBe 4 p.toNat

/-- ExtractPartitionCmd (43_partition_extractor.md R170). -/
def extractPartitionCmd (o : Operands) : CmdOutcome :=
  gated o (.ok true (.partOut (partitionBytes (partitionOfText o.txtIn))))

/-- EXTRACT_PARTITION (43_partition_extractor.md R170). -/
def execExtractPartition (s : State) : Host.Outcome State Fault Refusal :=
  .next (complete (extractPartitionCmd s.operands) s)

end Sys2Proof.Machine
end

