-- ==== Sys2Proof/Machine/Packer.lean ====
section
/-! DEFINITION. The field packer commands (41_field_packer.md). -/

namespace Sys2Proof.Machine

/-- `Pack(p, t, r)`: 6 timestamp bytes, 4 partition bytes, the 10 randomness bytes verbatim (41_field_packer.md R131;
30_encoding.md R70). -/
def pack (p : BitVec 30) (t : BitVec 48) (r : Bytes 10) : Bytes 20 :=
  bytesBe 6 t.toNat ++ partitionBytes p ++ r

/-- The end of every pack command that takes the time from TS_IN: InvalidTimestamp out of the domain, else the packed
binary (41_field_packer.md R133, R135, R136). -/
def packWithTimestamp (o : Operands) (p : BitVec 30) : CmdOutcome :=
  if inTsDomain (tsOperand o) then .ok true (.binOut (pack p ((tsOperand o).setWidth 48) o.randIn))
  else .fail .invalidTimestamp .range 0

/-- PackCmd (41_field_packer.md R133): the partition is checked before the timestamp. -/
def packCmd (o : Operands) : CmdOutcome :=
  if inPartDomain (partOperand o) then packWithTimestamp o ((partOperand o).setWidth 30)
  else .fail .invalidPartition .range 0

/-- PackExampleCmd (41_field_packer.md R134): PART_IN and TS_IN are not read. -/
def packExampleCmd (o : Operands) : CmdOutcome :=
  .ok true (.binOut (pack Config.examplePartition Config.exampleTimestamp o.randIn))

/-- PackRootCmd (41_field_packer.md R135). -/
def packRootCmd (o : Operands) : CmdOutcome := packWithTimestamp o (maskPart o.rpartIn)

/-- PackRelatedCmd (41_field_packer.md R136): the text is checked before the timestamp. -/
def packRelatedCmd (o : Operands) : CmdOutcome := gated o (packWithTimestamp o (partitionOfText o.txtIn))

/-- RandomPartitionCmd (41_field_packer.md R137). -/
def randomPartitionCmd (o : Operands) : CmdOutcome := .ok true (.partOut (partitionBytes (maskPart o.rpartIn)))

/-- PACK (41_field_packer.md R133). -/
def execPack (s : State) : Host.Outcome State Fault Refusal := .next (complete (packCmd s.operands) s)

/-- PACK_EXAMPLE (41_field_packer.md R134). -/
def execPackExample (s : State) : Host.Outcome State Fault Refusal := .next (complete (packExampleCmd s.operands) s)

/-- PACK_ROOT (41_field_packer.md R135). -/
def execPackRoot (s : State) : Host.Outcome State Fault Refusal := .next (complete (packRootCmd s.operands) s)

/-- PACK_RELATED (41_field_packer.md R136). -/
def execPackRelated (s : State) : Host.Outcome State Fault Refusal := .next (complete (packRelatedCmd s.operands) s)

/-- RANDOM_PARTITION (41_field_packer.md R137). -/
def execRandomPartition (s : State) : Host.Outcome State Fault Refusal :=
  .next (complete (randomPartitionCmd s.operands) s)

end Sys2Proof.Machine
end

