-- ==== Sys2Proof/Machine/Dispatch.lean ====
section
/-! DEFINITION. exec: one arm per command, each a direct call of its meaning (40_host_interface.md R106). -/

namespace Sys2Proof.Machine

def exec (i : Instr) (s : State) : Host.Outcome State Fault Refusal :=
  match i with
  | .pack => Sys2Proof.Machine.execPack s
  | .packExample => Sys2Proof.Machine.execPackExample s
  | .packRoot => Sys2Proof.Machine.execPackRoot s
  | .packRelated => Sys2Proof.Machine.execPackRelated s
  | .randomPartition => Sys2Proof.Machine.execRandomPartition s
  | .encode => Sys2Proof.Machine.execEncode s
  | .decode => Sys2Proof.Machine.execDecode s
  | .zero => Sys2Proof.Machine.execZero s
  | .extractPartition => Sys2Proof.Machine.execExtractPartition s
  | .validateText => Sys2Proof.Machine.execValidateText s
  | .validateBinary => Sys2Proof.Machine.execValidateBinary s

end Sys2Proof.Machine
end

