-- ==== Sys2Proof/Machine/Turns.lean ====
section
/-! DEFINITION. What each agent does when the next event is its own: the engine's completion step (40_host_interface.md
R104 to R106), the host program's next statement (30_encoding.md R96), a clock edge driven from outside (R100). -/

namespace Sys2Proof.Machine

/-- The command the engine has in flight, from OP (40_host_interface.md R106). -/
def fetched (s : State) : Except DecodeError Instr := decode s.op

/-- The engine's step (40_host_interface.md R104): enabled exactly when BUSY = 1, and then the completion of OP's command;
a byte that is no command completes as ILLEGAL_COMMAND (60_exceptions.md R204). With BUSY = 0 the engine has no step. -/
def engineStep (s : State) : Host.Outcome State Fault Refusal :=
  if s.busy then
    match fetched s with
    | .ok i => exec i s
    | .error _ => .next (complete illegalOutcome s)
  else .next s

/-- A state with the host agent's next statement index and last read byte replaced. -/
def hostAt (s : State) (pc : Nat) (last : Byte) : State := { s with host := { s.host with pc := pc, last := last } }

/-- The host program's next statement (30_encoding.md R96): a transaction on the block, or a branch on the last read
byte. A program that has ended makes no event. -/
def hostStep (s : State) : State :=
  match s.host.program[s.host.pc]? with
  | none => s
  | some (.tx (.write a v)) => hostAt (memWrite s a v) (s.host.pc + 1) s.host.last
  | some (.tx (.read a)) => hostAt (busRead s a) (s.host.pc + 1) (readByte s a)
  | some (.bnz mask target) =>
    hostAt s (if s.host.last &&& mask ≠ 0 then target else s.host.pc + 1) s.host.last

/-- The event of a turn. -/
def takeTurn (t : Turn) (s : State) : Host.Outcome State Fault Refusal :=
  match t with
  | .engine => engineStep s
  | .host => .next (hostStep s)
  | .pins p => .next (clockEdge p s)

/-- The turn past the end of the schedule: the engine completes a command in flight, else the host goes on, so no issued
command waits for ever (70_reset_and_hazards.md R245). DESIGN CHOICE, unsafe only for runs past the schedule
(notes/assumptions/2.md). -/
def defaultTurn (s : State) : Turn := if s.busy then .engine else .host

/-- Whose event comes next in the one total order of events (20_memory.md R60, R61). -/
def nextTurn (s : State) : Turn := s.schedule.headD (defaultTurn s)

/-- The state from which the next event is taken: its entry of the schedule is used up. -/
def turnTaken (s : State) : State := { s with schedule := s.schedule.tail }

end Sys2Proof.Machine
end

