-- ==== Sys2Proof/Machine/Step.lean ====
section
/-! DEFINITION. One step of the machine: the next event of the one total order of host transactions and completion steps
(20_memory.md R60). -/

namespace Sys2Proof.Machine

/-- One event: whose it is, the schedule says; what it does, the turn says. -/
def step (s : State) : Host.Outcome State Fault Refusal :=
  takeTurn (nextTurn s) (turnTaken s)

/-- The state whose very next step completes the command of the given instruction word: its byte in OP, BUSY = 1, the
engine's turn next (notes/assumptions/3.md says how a command comes to run from reset). -/
def State.withFetchWord (s : State) (nbits w : Nat) : State := placeCommand s nbits w

end Sys2Proof.Machine
end

