-- ==== Sys2Proof/Machine/Assembler.lean ====
section
/-! DEFINITION. The assembler of host programs: the pseudo-instructions' expansions, labels, and the source generators as
host sequences (30_encoding.md R96, R97; 41_field_packer.md R138). -/

namespace Sys2Proof.Machine

/-- `WRB base, bs`: ascending addresses (30_encoding.md R97). -/
def writeRun (base : Nat) (bs : List Byte) : List HostStmt :=
  bs.mapIdx fun k b => .tx (.write (BitVec.ofNat 8 (base + k)) b)

/-- `RDB base, n`: ascending addresses (30_encoding.md R97). -/
def readRun (base n : Nat) : List HostStmt :=
  (List.range n).map fun k => .tx (.read (BitVec.ofNat 8 (base + k)))

/-- `POLL` at statement index `at_`: read STATUS until BUSY = 0 (30_encoding.md R97). -/
def pollAt (at_ : Nat) : List HostStmt := [.tx (.read 0x01), .bnz 0x01 at_]

/-- The statements a line becomes when its first one has index `at_`; `labels` gives each label's statement index. A BNZ
to a label that is not defined is no program (30_encoding.md R96, R97). -/
def expandLine (labels : List (String × Nat)) (at_ : Nat) : AsmLine → Option (List HostStmt)
  | .wr a v => some [.tx (.write a v)]
  | .rd a => some [.tx (.read a)]
  | .bnz mask l => (labels.lookup l).map fun t => [.bnz mask t]
  | .label _ => some []
  | .cmd mn => some [.tx (.write 0x00 (encode mn))]
  | .poll => some (pollAt at_)
  | .exec mn => some (.tx (.write 0x00 (encode mn)) :: pollAt (at_ + 1))
  | .wrb base bs => some (writeRun base.toNat bs)
  | .rdb base n => some (readRun base.toNat n)
  | .wrtxt s => some (writeRun 0x50 s ++ [.tx (.write 0x05 (BitVec.ofNat 8 s.length))])
  | .wrbin b => some (writeRun 0x30 b.toList ++ [.tx (.write 0x06 0x14)])
  | .wr64 base v => some (writeRun base.toNat (bytesBe 8 v.toNat).toList)
  | .clrovr => some [.tx (.write 0x01 0x08)]

/-- How many statements a line becomes. -/
def lineSize : AsmLine → Nat
  | .label _ => 0
  | .wr _ _ | .rd _ | .bnz _ _ | .cmd _ | .clrovr => 1
  | .poll => 2
  | .exec _ => 3
  | .wrb _ bs => bs.length
  | .rdb _ n => n
  | .wrtxt s => s.length + 1
  | .wrbin _ => 21
  | .wr64 _ _ => 8

/-- The statement index of every label, the lines starting at index `at_`. -/
def labelsFrom (at_ : Nat) : List AsmLine → List (String × Nat)
  | [] => []
  | .label l :: rest => (l, at_) :: labelsFrom at_ rest
  | line :: rest => labelsFrom (at_ + lineSize line) rest

/-- The lines from index `at_` on, expanded. -/
def expandFrom (labels : List (String × Nat)) (at_ : Nat) : List AsmLine → Option (List HostStmt)
  | [] => some []
  | line :: rest =>
    match expandLine labels at_ line, expandFrom labels (at_ + lineSize line) rest with
    | some a, some b => some (a ++ b)
    | _, _ => none

/-- A host program from its lines; `none` for an ill-formed line or an undefined label (30_encoding.md R96, R97). -/
def assemble (lines : List AsmLine) : Option (List HostStmt) :=
  if lines.all AsmLine.wellFormed then expandFrom (labelsFrom 0 lines) 0 lines else none

/-- The HOSTTX words of a program's transactions, in program order (30_encoding.md R95). -/
def hostTxWords (p : List HostStmt) : List (BitVec 17) :=
  p.filterMap fun
    | .tx t => some (encodeHostTx t)
    | .bnz _ _ => none

/-- "generate now" as a host sequence (41_field_packer.md R138); the time and the random bytes are the host's. -/
def generateNow (partition now : BitVec 64) (random : Bytes 10) : List AsmLine :=
  [.wr64 0x10 partition, .wr64 0x08 now, .wrb 0x20 random.toList, .exec .pack]

/-- "generate example" (41_field_packer.md R138). -/
def generateExample (random : Bytes 10) : List AsmLine := [.wrb 0x20 random.toList, .exec .packExample]

/-- "generate root" (41_field_packer.md R138). -/
def generateRoot (randomPart : Bytes 4) (now : BitVec 64) (random : Bytes 10) : List AsmLine :=
  [.wrb 0x18 randomPart.toList, .wr64 0x08 now, .wrb 0x20 random.toList, .exec .packRoot]

/-- "generate related" (41_field_packer.md R138). -/
def generateRelated (existing : List Byte) (now : BitVec 64) (random : Bytes 10) : List AsmLine :=
  [.wrtxt existing, .wr64 0x08 now, .wrb 0x20 random.toList, .exec .packRelated]

end Sys2Proof.Machine
end

