-- ==== Sys2Proof/Safety.lean ====
section
/-! DEFINITION. What a state of a safe run is, in the terms the statements use: the error record (60_exceptions.md R203),
the output registers (10_state.md R41; 42_transcoder.md R157), the end of a run (40_host_interface.md R114),
what a host may treat as a result (70_reset_and_hazards.md R233). -/

namespace Sys2Proof.Machine

/-- The (ERRCODE, ERRCAUSE, ERRPOS) triples that are ever written (60_exceptions.md R203). -/
def legalErrorRecord (code cause pos : Byte) : Bool :=
  match code.toNat, cause.toNat with
  | 0, 0 | 1, 1 | 1, 4 | 2, 1 | 2, 2 | 3, 5 | 4, 5 | 5, 6 => pos == 0
  | 2, 3 => decide (1 ≤ pos.toNat ∧ pos.toNat ≤ 31)
  | _, _ => false

/-- A text as ENCODE and ZERO write it: the lowercase alphabet, the first character in `0`–`7` (42_transcoder.md R157). -/
def isCanonicalText (t : Bytes 32) : Bool :=
  firstCharOk t[0] && t.toList.all fun c => (sym c).isSome && lower c == c

/-- The error record agrees with itself and with STATUS: the triple is legal, ERR is 1 exactly with a non-zero ERRCODE, a
failure has RESULT 0, and while BUSY = 1 the record is clear (10_state.md R25, R26, R29; 60_exceptions.md R203;
40_host_interface.md R103). -/
def errorRecordOk (s : State) : Bool :=
  legalErrorRecord s.errcode s.errcause s.errpos && (s.err == (s.errcode != 0)) && !(s.err && s.result)
    && (!s.busy || (s.errcode == 0 && !s.result))

/-- The output registers hold what only commands and reset write: PART_OUT below 2^30 (10_state.md R41), TXT_OUT the
reset contents or a canonical text (42_transcoder.md R157; 70_reset_and_hazards.md R233). -/
def outputsOk (s : State) : Bool :=
  decide (be s.partOut.toList < 2 ^ 30) && (s.txtOut == Vector.replicate 32 0 || isCanonicalText s.txtOut)

/-- `s` after a completion without error and without its output write: BUSY 0, ERR 0, RESULT 1, the error record 0
(40_host_interface.md R105). -/
def completed (s : State) : State :=
  { s with busy := false, err := false, result := true, errcode := 0, errcause := 0, errpos := 0 }

/-- `s` after a failed completion with this error triple (60_exceptions.md R205). -/
def failed (s : State) (code cause pos : Byte) : State :=
  { s with busy := false, err := true, result := false, errcode := code, errcause := cause, errpos := pos }

/-- The symbol value of a character, 0 for a byte outside the alphabet. -/
def symbolValue (c : Byte) : Nat := ((sym c).map BitVec.toNat).getD 0

/-- `Σ sym(S[k]) · 2^(5·(31−k))`: the 160-bit value of a text (30_encoding.md R74; 42_transcoder.md R151). -/
def textValue (t : Bytes 32) : Nat := ∑ k : Fin 32, symbolValue t[k] * 2 ^ (5 * (31 - k.val))

/-- `Σ sym(S[10+j]) · 2^(5·(5−j))`: the partition of a text (30_encoding.md R78; 43_partition_extractor.md R171). -/
def textPartition (t : Bytes 32) : Nat := ∑ j : Fin 6, symbolValue t[10 + j.val] * 2 ^ (5 * (5 - j.val))

/-- The candidate is a TextId: "exactly 32 characters, first character in `0`-`7`, and every character (including the
first) is in the Crockford alphabet" (44_validator.md R180). -/
def TextValid (o : Operands) : Prop :=
  o.tlen = 32 ∧ (0x30 ≤ o.txtIn[0].toNat ∧ o.txtIn[0].toNat ≤ 0x37) ∧ ∀ k : Fin 32, sym o.txtIn[k] ≠ none

/-- The candidate fails the text check with this cause code at this position (44_validator.md R180; 60_exceptions.md
R202): the three cases exclude each other. -/
def TextFaultAt (o : Operands) (cause pos : Byte) : Prop :=
  (o.tlen ≠ 32 ∧ cause = 1 ∧ pos = 0) ∨
  (o.tlen = 32 ∧ ¬(0x30 ≤ o.txtIn[0].toNat ∧ o.txtIn[0].toNat ≤ 0x37) ∧ cause = 2 ∧ pos = 0) ∨
  (o.tlen = 32 ∧ (0x30 ≤ o.txtIn[0].toNat ∧ o.txtIn[0].toNat ≤ 0x37) ∧
    ∃ k : Fin 32, sym o.txtIn[k] = none ∧ (∀ j : Fin 32, j < k → sym o.txtIn[j] ≠ none) ∧
      cause = 3 ∧ pos = BitVec.ofNat 8 k.val)

/-- The transaction the next event performs on the block, if it performs one: the host program's, or that of a clock edge
with rst = 0 and sel = 1 (40_host_interface.md R100; 20_memory.md R60). -/
def nextTx (s : State) : Option HostTx :=
  match nextTurn s with
  | .engine => none
  | .host =>
    match s.host.program[s.host.pc]? with
    | some (.tx t) => some t
    | _ => none
  | .pins p =>
    if p.rst then none
    else if p.sel then some (if p.we then .write p.addr p.wdata else .read p.addr)
    else none

/-- The next event is a reset (70_reset_and_hazards.md R230). -/
def nextIsReset (s : State) : Bool :=
  match nextTurn s with
  | .pins p => p.rst
  | _ => false

/-- The next event is the engine's completion of the command in flight (40_host_interface.md R104). -/
def nextIsCompletion (s : State) : Bool := s.busy && nextTurn s == .engine

/-- The invariant of the machine. -/
def State.Inv (s : State) : Prop := errorRecordOk s = true ∧ outputsOk s = true

/-- A run of a host program has ended: its last statement is executed and BUSY = 0 (40_host_interface.md R114). -/
def runEnded (s : State) : Bool := decide (s.host.program.length ≤ s.host.pc) && !s.busy

/-- The output registers (10_state.md R40 to R42). -/
inductive OutputReg where
  | binOut
  | partOut
  | txtOut
deriving DecidableEq, Repr

/-- The bytes of an output register. -/
def outputContents (r : OutputReg) (s : State) : List Byte :=
  match r with
  | .binOut => s.binOut.toList
  | .partOut => s.partOut.toList
  | .txtOut => s.txtOut.toList

/-- The output register a command writes when it succeeds (30_encoding.md R91; 10_state.md R40 to R42). -/
def writesOutput : Instr → Option OutputReg
  | .pack => some .binOut
  | .packExample => some .binOut
  | .packRoot => some .binOut
  | .packRelated => some .binOut
  | .randomPartition => some .partOut
  | .encode => some .txtOut
  | .decode => some .binOut
  | .zero => some .txtOut
  | .extractPartition => some .partOut
  | .validateText => none
  | .validateBinary => none

/-- The byte is that of a command that writes this output register. -/
def opWrites (op : Byte) (r : OutputReg) : Bool :=
  match decode op with
  | .ok i => writesOutput i == some r
  | .error _ => false

/-- The next event, which leads from `s` to `t`, is the completion with ERR = 0 of a command that writes `r`
(70_reset_and_hazards.md R233). -/
def resultWritten (r : OutputReg) (s t : State) : Bool := nextIsCompletion s && !t.err && opWrites s.op r

/-- Whether `r` holds a result after the event from `s` to `t`, given whether it did before: a command that writes it makes
it one by completing with ERR = 0, a reset ends it, no other event touches it (70_reset_and_hazards.md R230, R233;
10_state.md R46). DEDUCED, safe (notes/assumptions/13.md). -/
def holdsResultAfter (r : OutputReg) (s t : State) (held : Bool) : Bool :=
  !nextIsReset s && (held || resultWritten r s t)

/-- Whether `r` holds a result after k events from `s`, given whether it does in `s`. -/
def holdsResult (r : OutputReg) : Nat → State → Bool → Bool
  | 0, _, held => held
  | k + 1, s, held =>
    match step s with
    | .next t => holdsResult r k t (holdsResultAfter r s t held)
    | .fault _ => held
    | .refused _ => held

/-- A host treats `r` as a result k events after the reset state `s`: a command that writes `r` has completed with ERR = 0
and no reset came after it (70_reset_and_hazards.md R233, R230), and BUSY = 0, since the reads of a busy block are draws
(R240). DEDUCED, safe: R233 says "only after" and the model reads "exactly after" (notes/assumptions/13.md). -/
def resultReady (r : OutputReg) (k : Nat) (s : State) : Bool :=
  holdsResult r k s false &&
    match Sys2Proof.core.run k s with
    | .next t => !t.busy
    | .fault _ => false
    | .refused _ => false

/-- CMD and STATUS alone show that `r` was written by the last completed command (40_host_interface.md R114): BUSY = 0,
ERR = 0, and OP is a command that writes `r`. After reset OP is no command (70_reset_and_hazards.md R233). -/
def statusShowsResult (r : OutputReg) (s : State) : Bool := !s.busy && !s.err && opWrites s.op r

/-- What the history of `r`, whether it holds a result, says of the state: without one it holds its reset contents; with one
TXT_OUT is a canonical text; and what CMD and STATUS show is so (70_reset_and_hazards.md R233; 10_state.md R46;
42_transcoder.md R157; 40_host_interface.md R114). -/
structure ResultHistory (r : OutputReg) (s : State) (held : Bool) : Prop where
  unwritten : held = false → outputContents r s = outputContents r State.reset
  canonical : held = true → r = .txtOut → isCanonicalText s.txtOut = true
  shown : statusShowsResult r s = true → held = true

end Sys2Proof.Machine
end

