-- ==== Sys2Proof/Certificates/Slice0/Obligations.lean ====
section
/-! DEFINITION. The statements for the provers, file by file of spec/. -/

open Sys2Proof Sys2Proof.Machine

/-! ### Encodings (00_scope.md, 30_encoding.md) -/

/-- R9: `bytes_be_n` and `be` are inverse on their domains. -/
def Obligations.BigEndianBytesRoundTrip : Prop :=
  ∀ n : Nat,
    (∀ v : Nat, v < 2 ^ (8 * n) → be (bytesBe n v).toList = v) ∧
    (∀ (v : Nat) (k : Fin n), (bytesBe n v)[k].toNat = v / 2 ^ (8 * (n - 1 - k.val)) % 2 ^ 8) ∧
    (∀ b : Bytes n, be b.toList < 2 ^ (8 * n) ∧ bytesBe n (be b.toList) = b) ∧
    (∀ b : Bytes n, be b.toList = ∑ k : Fin n, b[k].toNat * 2 ^ (8 * (n - 1 - k.val)))

/-- R10: stream offset o names bit `V[159 − o]` of the 160-bit value. -/
def Obligations.StreamOffsetNamesValueBit : Prop :=
  ∀ (b : Bytes 20) (o : Nat), o < 160 → getBit b o = (be b.toList).testBit (159 - o)

/-- R90: the opcode map is exactly the table's eleven rows, matched whole. -/
def Obligations.OpcodeMapIsTheTable : Prop :=
  ∀ (b : Byte) (i : Instr), decode b = .ok i ↔
    (b, i) ∈ ([(0x01, .pack), (0x02, .packExample), (0x03, .packRoot), (0x04, .packRelated),
      (0x05, .randomPartition), (0x10, .encode), (0x11, .decode), (0x12, .zero), (0x20, .extractPartition),
      (0x30, .validateText), (0x31, .validateBinary)] : List (Byte × Instr))

/-- Every command's byte decodes to the command, and every byte that decodes is that command's byte. -/
def Obligations.CommandDecodeEncodeAgree : Prop :=
  (∀ i : Instr, i.wellFormed = true → decode (encode i) = .ok i) ∧
  (∀ (b : Byte) (i : Instr), decode b = .ok i → encode i = b)

/-- R95: the fields of HOSTTX, its two examples, and that decoding and encoding agree both ways. That a read with DATA other
than 0 does not decode (the last clause, and the only-if of the decoding) is the MODEL's reading, not R95's words
(notes/assumptions/7.md). -/
def Obligations.HostTxWordFieldsRoundTrip : Prop :=
  (∀ a v : Byte, (encodeHostTx (.write a v)).toNat = 2 ^ 16 + a.toNat * 2 ^ 8 + v.toNat) ∧
  (∀ a : Byte, (encodeHostTx (.read a)).toNat = a.toNat * 2 ^ 8) ∧
  encodeHostTx (.write 0x00 0x01) = 0x10001 ∧ encodeHostTx (.read 0x01) = 0x00100 ∧
  (∀ t : HostTx, decodeHostTx (encodeHostTx t) = some t) ∧
  (∀ (w : BitVec 17) (t : HostTx), decodeHostTx w = some t → encodeHostTx t = w) ∧
  (∀ w : BitVec 17, decodeHostTx w = none ↔ (w.toNat < 2 ^ 16 ∧ w.toNat % 256 ≠ 0))

/-- R97: what every pseudo-instruction becomes, at any statement index. -/
def Obligations.PseudoInstructionsExpand : Prop :=
  ∀ (labels : List (String × Nat)) (n : Nat),
    (∀ mn, expandLine labels n (.cmd mn) = some [.tx (.write 0x00 (encode mn))]) ∧
    expandLine labels n .poll = some [.tx (.read 0x01), .bnz 0x01 n] ∧
    (∀ mn, expandLine labels n (.exec mn) =
      some [.tx (.write 0x00 (encode mn)), .tx (.read 0x01), .bnz 0x01 (n + 1)]) ∧
    (∀ (base : Byte) (bs : List Byte), base.toNat + bs.length ≤ 256 →
      ∃ p, expandLine labels n (.wrb base bs) = some p ∧ p.length = bs.length ∧
        ∀ (k : Nat) (b : Byte), bs[k]? = some b → p[k]? = some (.tx (.write (base + BitVec.ofNat 8 k) b))) ∧
    (∀ (base : Byte) (m : Nat), base.toNat + m ≤ 256 →
      ∃ p, expandLine labels n (.rdb base m) = some p ∧ p.length = m ∧
        ∀ k, k < m → p[k]? = some (.tx (.read (base + BitVec.ofNat 8 k)))) ∧
    (∀ s : List Byte, s.length ≤ 32 →
      ∃ p, expandLine labels n (.wrb 0x50 s) = some p ∧
        expandLine labels n (.wrtxt s) = some (p ++ [.tx (.write 0x05 (BitVec.ofNat 8 s.length))])) ∧
    (∀ b : Bytes 20, ∃ p, expandLine labels n (.wrb 0x30 b.toList) = some p ∧
        expandLine labels n (.wrbin b) = some (p ++ [.tx (.write 0x06 0x14)])) ∧
    (∀ (base : Byte) (v : BitVec 64), expandLine labels n (.wr64 base v) =
      expandLine labels n (.wrb base (bytesBe 8 v.toNat).toList)) ∧
    expandLine labels n .clrovr = some [.tx (.write 0x01 0x08)]

/-- R80: the forward table, read off the source's alphabet string. -/
def Obligations.ForwardTableIsTheAlphabet : Prop :=
  (List.finRange 32).map (fun k => chr (BitVec.ofNat 5 k.val)) =
    ("0123456789abcdefghjkmnpqrstvwxyz".toList.map fun c => BitVec.ofNat 8 c.toNat)

/-- R81 (its derived sentences): sym inverts chr, chr of sym folds to lowercase, and 54 bytes have a symbol. -/
def Obligations.InverseTableFoldsCase : Prop :=
  (∀ s : Symbol, sym (chr s) = some s) ∧
  (∀ (c : Byte) (s : Symbol), sym c = some s →
    chr s = if 0x41 ≤ c.toNat ∧ c.toNat ≤ 0x5A then c + 0x20 else c) ∧
  ((List.range 256).filter fun n => (sym (BitVec.ofNat 8 n)).isSome).length = 54

/-- R150: a symbol-sized read of the cursor is the slice of the 160-bit value. -/
def Obligations.SymbolReadIsValueSlice : Prop :=
  ∀ (b : Bytes 20) (k : Nat), k < 32 → readBits b (5 * k) 5 = be b.toList / 2 ^ (155 - 5 * k) % 32

/-- R150: reading back a written field gives the value written, and every other bit is unchanged. -/
def Obligations.BitCursorReadAfterWrite : Prop :=
  ∀ (n : Nat) (b : Bytes n) (o len v : Nat), o + len ≤ 8 * n → v < 2 ^ len →
    readBits (writeBits b o len v) o len = v ∧
    ∀ o' : Nat, (o' < o ∨ o + len ≤ o') → getBit (writeBits b o len v) o' = getBit b o'

/-- R76: which field bits every symbol of a binary carries. -/
def Obligations.SymbolsCarryFieldBits : Prop :=
  ∀ (T : BitVec 48) (pad : BitVec 2) (P : BitVec 30) (R : BitVec 80) (b : Bytes 20),
    be b.toList = T.toNat * 2 ^ 112 + pad.toNat * 2 ^ 110 + P.toNat * 2 ^ 80 + R.toNat →
    (∀ k, k ≤ 8 → readBits b (5 * k) 5 = (T.extractLsb' (43 - 5 * k) 5).toNat) ∧
    readBits b 45 5 = (T.extractLsb' 0 3 ++ pad).toNat ∧
    (∀ j, j ≤ 5 → readBits b (5 * (10 + j)) 5 = (P.extractLsb' (25 - 5 * j) 5).toNat) ∧
    (∀ j, j ≤ 15 → readBits b (5 * (16 + j)) 5 = (R.extractLsb' (75 - 5 * j) 5).toNat)

/-- R77: the equivalent forms of the first-character rule. -/
def Obligations.FirstCharacterRuleEquivalents : Prop :=
  (∀ b : Bytes 20,
    ((0x30 ≤ (encodeText b)[0].toNat ∧ (encodeText b)[0].toNat ≤ 0x37) ↔ readBits b 0 5 ≤ 7) ∧
    (readBits b 0 5 ≤ 7 ↔ be b.toList / 2 ^ 158 = 0) ∧
    (readBits b 0 5 ≤ 7 ↔ b[0].toNat < 0x40)) ∧
  (∀ (p : BitVec 30) (t : BitVec 48) (r : Bytes 10), readBits (pack p t r) 0 5 ≤ 7 ↔ t.toNat < 2 ^ 46)

/-! ### Host transactions, issue and the engine (10_state.md, 20_memory.md, 40_host_interface.md) -/

/-- R108: the value of every address, in every state. That an output address of a busy block reads as Config.outputDraw at
the count of draws is the MODEL's form of the free value that R107 leaves open (notes/assumptions/1.md). -/
def Obligations.ReadByteEveryAddress : Prop :=
  ∀ s : State,
    readByte s 0x00 = s.op ∧
    (readByte s 0x01).toNat = 8 * s.ovr.toNat + 4 * s.result.toNat + 2 * s.err.toNat + s.busy.toNat ∧
    readByte s 0x02 = s.errcode ∧ readByte s 0x03 = s.errcause ∧ readByte s 0x04 = s.errpos ∧
    readByte s 0x05 = s.operands.tlen ∧ readByte s 0x06 = s.operands.blen ∧
    (∀ k : Fin 8, readByte s (0x08 + BitVec.ofNat 8 k.val) = s.operands.tsIn[k]) ∧
    (∀ k : Fin 8, readByte s (0x10 + BitVec.ofNat 8 k.val) = s.operands.partIn[k]) ∧
    (∀ k : Fin 4, readByte s (0x18 + BitVec.ofNat 8 k.val) = s.operands.rpartIn[k]) ∧
    (∀ k : Fin 10, readByte s (0x20 + BitVec.ofNat 8 k.val) = s.operands.randIn[k]) ∧
    (∀ k : Fin 20, readByte s (0x30 + BitVec.ofNat 8 k.val) = s.operands.binIn[k]) ∧
    (∀ k : Fin 32, readByte s (0x50 + BitVec.ofNat 8 k.val) = s.operands.txtIn[k]) ∧
    (∀ k : Fin 20, readByte s (0x70 + BitVec.ofNat 8 k.val) =
      if s.busy then Config.outputDraw s.draws else s.binOut[k]) ∧
    (∀ k : Fin 4, readByte s (0x84 + BitVec.ofNat 8 k.val) =
      if s.busy then Config.outputDraw s.draws else s.partOut[k]) ∧
    (∀ k : Fin 32, readByte s (0x90 + BitVec.ofNat 8 k.val) =
      if s.busy then Config.outputDraw s.draws else s.txtOut[k]) ∧
    (∀ a : Byte, (a = 0x07 ∨ (0x1C ≤ a.toNat ∧ a.toNat ≤ 0x1F) ∨ (0x2A ≤ a.toNat ∧ a.toNat ≤ 0x2F) ∨
      (0x44 ≤ a.toNat ∧ a.toNat ≤ 0x4F) ∨ (0x88 ≤ a.toNat ∧ a.toNat ≤ 0x8F) ∨ 0xB0 ≤ a.toNat) →
      readByte s a = 0x00)

/-- R56: a read, of any address in any state, leaves every register of the block as it was, and reading again gives the
same byte but for output registers while BUSY = 1. The count of draws, which a read may change, is the MODEL's own
(notes/assumptions/1.md). -/
def Obligations.ReadsChangeNoRegister : Prop :=
  ∀ (s : State) (a : Byte),
    (memRead s a).1 = readByte s a ∧
    (∃ d : Nat, (memRead s a).2 = { s with draws := d }) ∧
    (∀ b : Byte, ¬(s.busy = true ∧ ((0x70 ≤ b.toNat ∧ b.toNat ≤ 0x87) ∨ (0x90 ≤ b.toNat ∧ b.toNat ≤ 0xAF))) →
      readByte (memRead s a).2 b = readByte s b)

/-- A read of an output register while BUSY = 1 is the next draw, uses it up, and changes nothing else. R107 says only that
the byte is a fresh draw; that it is Config.outputDraw at a counter which the read advances is the MODEL's choice
(notes/assumptions/1.md). -/
def Obligations.BusyOutputReadsAreFreshDraws : Prop :=
  ∀ (s : State) (a : Byte), s.busy = true →
    ((0x70 ≤ a.toNat ∧ a.toNat ≤ 0x87) ∨ (0x90 ≤ a.toNat ∧ a.toNat ≤ 0xAF)) →
    memRead s a = (Config.outputDraw s.draws, { s with draws := s.draws + 1 })

/-- R102: what a host write does, for every address and byte. -/
def Obligations.HostWriteEveryAddress : Prop :=
  ∀ (s : State) (v : Byte),
    (s.busy = true → ∀ a : Byte, memWrite s a v = { s with ovr := true }) ∧
    (s.busy = false →
      memWrite s 0x00 v =
        { s with op := v, busy := true, err := false, result := false, errcode := 0, errcause := 0, errpos := 0 } ∧
      memWrite s 0x01 v = { s with ovr := s.ovr && !v.getLsbD 3 } ∧
      memWrite s 0x05 v = { s with operands := { s.operands with tlen := v } } ∧
      memWrite s 0x06 v = { s with operands := { s.operands with blen := v } } ∧
      (∀ k : Fin 8, memWrite s (0x08 + BitVec.ofNat 8 k.val) v =
        { s with operands := { s.operands with tsIn := s.operands.tsIn.set k v } }) ∧
      (∀ k : Fin 8, memWrite s (0x10 + BitVec.ofNat 8 k.val) v =
        { s with operands := { s.operands with partIn := s.operands.partIn.set k v } }) ∧
      (∀ k : Fin 4, memWrite s (0x18 + BitVec.ofNat 8 k.val) v =
        { s with operands := { s.operands with rpartIn := s.operands.rpartIn.set k v } }) ∧
      (∀ k : Fin 10, memWrite s (0x20 + BitVec.ofNat 8 k.val) v =
        { s with operands := { s.operands with randIn := s.operands.randIn.set k v } }) ∧
      (∀ k : Fin 20, memWrite s (0x30 + BitVec.ofNat 8 k.val) v =
        { s with operands := { s.operands with binIn := s.operands.binIn.set k v } }) ∧
      (∀ k : Fin 32, memWrite s (0x50 + BitVec.ofNat 8 k.val) v =
        { s with operands := { s.operands with txtIn := s.operands.txtIn.set k v } }) ∧
      (∀ a : Byte, ((0x02 ≤ a.toNat ∧ a.toNat ≤ 0x04) ∨ a = 0x07 ∨ (0x1C ≤ a.toNat ∧ a.toNat ≤ 0x1F) ∨
        (0x2A ≤ a.toNat ∧ a.toNat ≤ 0x2F) ∨ (0x44 ≤ a.toNat ∧ a.toNat ≤ 0x4F) ∨ 0x70 ≤ a.toNat) →
        memWrite s a v = s))

/-- R102: a byte written to an operand address of an idle block reads back there, and every other address reads as
before. -/
def Obligations.OperandReadAfterWrite : Prop :=
  ∀ (s : State) (a v : Byte), s.busy = false →
    (a = 0x05 ∨ a = 0x06 ∨ (0x08 ≤ a.toNat ∧ a.toNat ≤ 0x1B) ∨ (0x20 ≤ a.toNat ∧ a.toNat ≤ 0x29) ∨
      (0x30 ≤ a.toNat ∧ a.toNat ≤ 0x43) ∨ (0x50 ≤ a.toNat ∧ a.toNat ≤ 0x6F)) →
    readByte (memWrite s a v) a = v ∧ ∀ b : Byte, b ≠ a → readByte (memWrite s a v) b = readByte s b

/-- R103: command issue, for every opcode byte, legal or not. -/
def Obligations.CommandIssueClearsErrorRecord : Prop :=
  ∀ (s : State) (v : Byte), s.busy = false →
    memWrite s 0x00 v =
      { s with op := v, busy := true, err := false, result := false, errcode := 0, errcause := 0, errpos := 0 }

/-- R100: what one rising clk edge does to the block, for all pins. -/
def Obligations.ClockEdgeDoesOneTransaction : Prop :=
  ∀ (p : Pins) (s : State),
    (p.rst = false → p.sel = false → clockEdge p s = s) ∧
    (p.rst = false → p.sel = true → p.we = true → clockEdge p s = memWrite s p.addr p.wdata) ∧
    (p.rst = false → p.sel = true → p.we = false →
      clockEdge p s = { (memRead s p.addr).2 with rdata := readByte s p.addr }) ∧
    (p.rst = true → ∀ p' : Pins, p'.rst = true → clockEdge p s = clockEdge p' s)

/-- A step whose turn is the engine's, with BUSY = 1 and a command's byte in OP, is exec of that command; the turn is the
engine's by the schedule, or because the schedule is used up (notes/assumptions/2.md). -/
def Obligations.StepRunsDecodedCommand : Prop :=
  ∀ (s : State) (i : Instr), s.busy = true → decode s.op = .ok i →
    (∀ rest, s.schedule = .engine :: rest → step s = exec i { s with schedule := rest }) ∧
    (s.schedule = [] → step s = exec i s)

/-- The state that holds a command's table word where the engine takes it from runs exactly that command next; its schedule
is used up to where it stood. The block has no fetch (R48): withFetchWord, which stands for the issue of the command, is
the MODEL's own choice (notes/assumptions/3.md). -/
def Obligations.PlacedCommandRunsNext : Prop :=
  ∀ (s : State) (i : Instr),
    step (s.withFetchWord 8 (encode i).toNat) = exec i { s with op := encode i, busy := true }

/-- With BUSY = 0 the engine has no step (R104). That its turn is still a step, one that only uses up the turn, is the
MODEL's choice (notes/assumptions/2.md). -/
def Obligations.IdleEngineHasNoStep : Prop :=
  ∀ (s : State) (rest : List Turn), s.busy = false → s.schedule = .engine :: rest →
    step s = .next { s with schedule := rest }

/-- A host turn performs the program's next statement: a write, a read whose byte the host keeps, or a branch taken iff
the last read byte ANDed with the mask is non-zero (R96). That a branch, and a program that has ended, each take a host turn
in which only the schedule is used up is the MODEL's choice (notes/assumptions/2.md, notes/assumptions/15.md). -/
def Obligations.HostTurnRunsNextStatement : Prop :=
  ∀ (s : State) (rest : List Turn), s.schedule = .host :: rest →
    (∀ a v, s.host.program[s.host.pc]? = some (.tx (.write a v)) →
      ∃ t, step s = .next t ∧ t.host = { s.host with pc := s.host.pc + 1 } ∧
        { t with host := s.host } = memWrite { s with schedule := rest } a v) ∧
    (∀ a, s.host.program[s.host.pc]? = some (.tx (.read a)) →
      ∃ t, step s = .next t ∧ t.host = { s.host with pc := s.host.pc + 1, last := readByte s a } ∧
        { t with host := s.host } = { (memRead { s with schedule := rest } a).2 with rdata := readByte s a }) ∧
    (∀ mask target, s.host.program[s.host.pc]? = some (.bnz mask target) →
      step s = .next { s with schedule := rest
                              host := { s.host with
                                pc := if s.host.last &&& mask = 0 then s.host.pc + 1 else target } }) ∧
    (s.host.program[s.host.pc]? = none → step s = .next { s with schedule := rest })

/-! ### Whole-machine rules over every event -/

/-- R24: an issue alone sets BUSY; a completion, or a reset, alone clears it. -/
def Obligations.BusySetByIssueClearedByCompletion : Prop :=
  ∀ s t : State, step s = .next t →
    (t.busy = true ↔
      (nextIsReset s = false ∧
        ((s.busy = true ∧ nextIsCompletion s = false) ∨ (s.busy = false ∧ ∃ v, nextTx s = some (.write 0x00 v)))))

/-- R27: OVR is set by a write dropped while BUSY = 1, cleared only by a reset or by a STATUS write with bit 3 while
BUSY = 0, and otherwise keeps its value, through issues and completions too. -/
def Obligations.OverrunIsSticky : Prop :=
  ∀ s t : State, step s = .next t →
    (nextIsReset s = true → t.ovr = false) ∧
    (nextIsReset s = false → s.busy = true → (∃ a v, nextTx s = some (.write a v)) → t.ovr = true) ∧
    (nextIsReset s = false → s.busy = false → (∃ v : Byte, nextTx s = some (.write 0x01 v) ∧ v.getLsbD 3 = true) →
      t.ovr = false) ∧
    (nextIsReset s = false → ¬(s.busy = true ∧ ∃ a v, nextTx s = some (.write a v)) →
      ¬(s.busy = false ∧ ∃ v : Byte, nextTx s = some (.write 0x01 v) ∧ v.getLsbD 3 = true) → t.ovr = s.ovr)

/-- R45: no command writes an operand register, legal or illegal; over all events, only a reset or a host write to an
operand address of an idle block changes one. -/
def Obligations.OperandsChangeOnlyByHostWrites : Prop :=
  (∀ (i : Instr) (s t : State), exec i s = .next t → t.operands = s.operands) ∧
  (∀ s t : State, step s = .next t → t.operands ≠ s.operands →
    nextIsReset s = true ∨
    (s.busy = false ∧ ∃ a v, nextTx s = some (.write a v) ∧
      (a = 0x05 ∨ a = 0x06 ∨ (0x08 ≤ a.toNat ∧ a.toNat ≤ 0x1B) ∨ (0x20 ≤ a.toNat ∧ a.toNat ≤ 0x29) ∨
        (0x30 ≤ a.toNat ∧ a.toNat ≤ 0x43) ∨ (0x50 ≤ a.toNat ∧ a.toNat ≤ 0x6F))))

/-- R46: outside a reset, an output register changes only at the completion of a successful command that writes it. -/
def Obligations.OutputsChangeOnlyAtSuccess : Prop :=
  ∀ s t : State, step s = .next t → nextIsReset s = false →
    (t.binOut ≠ s.binOut → nextIsCompletion s = true ∧ t.err = false ∧
      ∃ i, decode s.op = .ok i ∧ i ∈ [Instr.pack, .packExample, .packRoot, .packRelated, .decode]) ∧
    (t.partOut ≠ s.partOut → nextIsCompletion s = true ∧ t.err = false ∧
      ∃ i, decode s.op = .ok i ∧ i ∈ [Instr.extractPartition, .randomPartition]) ∧
    (t.txtOut ≠ s.txtOut → nextIsCompletion s = true ∧ t.err = false ∧
      ∃ i, decode s.op = .ok i ∧ i ∈ [Instr.encode, .zero])

/-- R210: the error record, OP and RESULT change only at an issue, a completion or a reset; OP not at a completion. -/
def Obligations.ErrorRecordChangesOnlyByCommands : Prop :=
  ∀ s t : State, step s = .next t → nextIsReset s = false → ¬(s.busy = false ∧ ∃ v, nextTx s = some (.write 0x00 v)) →
    t.op = s.op ∧
    (nextIsCompletion s = false →
      t.err = s.err ∧ t.result = s.result ∧ t.errcode = s.errcode ∧ t.errcause = s.errcause ∧ t.errpos = s.errpos)

/-- R203: the only error triples a completion writes, ERR and RESULT beside them, and the failing input left in place. -/
def Obligations.CompletionsWriteLegalTriples : Prop :=
  ∀ s t : State, s.busy = true → engineStep s = .next t →
    t.operands = s.operands ∧
    ((t.err = false ∧ t.errcode = 0 ∧ t.errcause = 0 ∧ t.errpos = 0) ∨
     (t.err = true ∧ t.result = false ∧ t.binOut = s.binOut ∧ t.partOut = s.partOut ∧ t.txtOut = s.txtOut ∧
      ((t.errcode, t.errcause, t.errpos) ∈
          ([(1, 1, 0), (1, 4, 0), (2, 1, 0), (2, 2, 0), (3, 5, 0), (4, 5, 0), (5, 6, 0)] : List (Byte × Byte × Byte)) ∨
        (t.errcode = 2 ∧ t.errcause = 3 ∧ 1 ≤ t.errpos.toNat ∧ t.errpos.toNat ≤ 31))))

/-- R207: the outcome of a command is a function of OP and the operand registers: two blocks that agree on these complete
with the same error record, and write the same output or none. -/
def Obligations.OutcomeDependsOnlyOnOpAndOperands : Prop :=
  ∀ s s' t t' : State, s.busy = true → s'.busy = true → s.op = s'.op → s.operands = s'.operands →
    engineStep s = .next t → engineStep s' = .next t' →
    t.err = t'.err ∧ t.result = t'.result ∧ t.errcode = t'.errcode ∧ t.errcause = t'.errcause ∧ t.errpos = t'.errpos ∧
    ((t.binOut = s.binOut ∧ t'.binOut = s'.binOut) ∨ t.binOut = t'.binOut) ∧
    ((t.partOut = s.partOut ∧ t'.partOut = s'.partOut) ∨ t.partOut = t'.partOut) ∧
    ((t.txtOut = s.txtOut ∧ t'.txtOut = s'.txtOut) ∨ t.txtOut = t'.txtOut)

/-- R52, R200: no event, in any state, ends in a fault or a refusal. -/
def Obligations.EveryStepAnswersANextState : Prop :=
  ∀ s : State, ∃ t : State, step s = .next t

/-- The invariant: a legal error record that agrees with STATUS, PART_OUT below 2^30, TXT_OUT the reset contents or a
canonical text. Every step keeps it, from every state that has it. -/
def Obligations.StepKeepsInvariant : Prop :=
  ∀ s t : State, s.Inv → step s = .next t → t.Inv

/-- The state after reset has the invariant. -/
def Obligations.ResetHasInvariant : Prop := State.reset.Inv

/-- R245 under the model's schedule: with a command in flight, and however the schedule places the events, BUSY is cleared
within one step more than the schedule is long, with the command and its operands as they were until then. The step that
clears it is the command's completion, or a reset that the schedule holds and that abandons it (R230, R245); without a
reset in the schedule it is the completion. That the engine moves once the schedule is used up is the MODEL's choice
(notes/assumptions/2.md). -/
def Obligations.IssuedCommandCompletesOrIsReset : Prop :=
  ∀ s : State, s.busy = true →
    ∃ k u t, k ≤ s.schedule.length ∧ Sys2Proof.core.run k s = .next u ∧
      u.busy = true ∧ u.op = s.op ∧ u.operands = s.operands ∧ step u = .next t ∧ t.busy = false ∧
      (nextIsCompletion u = true ∨ (nextIsReset u = true ∧ ∃ p : Pins, .pins p ∈ s.schedule ∧ p.rst = true)) ∧
      ((∀ p : Pins, .pins p ∈ s.schedule → p.rst = false) → nextIsCompletion u = true)

/-- R230: an edge with rst = 1 makes every address read 0x00 and rdata 0x00, abandons a command in flight (the engine has
no step after it), and ignores the transaction presented; no other event than a completion clears BUSY. That the count of
draws, the host agent and the schedule are not the block's and so outlive a reset is the MODEL's choice
(notes/assumptions/1.md, notes/assumptions/2.md, notes/assumptions/4.md). -/
def Obligations.ResetClearsEveryRegister : Prop :=
  ∀ (p : Pins) (s : State), p.rst = true →
    clockEdge p s = { State.reset with draws := s.draws, host := s.host, schedule := s.schedule } ∧
    (∀ a : Byte, readByte (clockEdge p s) a = 0x00) ∧ (clockEdge p s).rdata = 0x00 ∧
    engineStep (clockEdge p s) = .next (clockEdge p s) ∧
    (∀ t t' : State, step t = .next t' → t.busy = true → t'.busy = false →
      nextIsReset t = true ∨ nextIsCompletion t = true)

/-- R47: right after reset every address reads 0 and BUSY is 0. -/
def Obligations.ResetValuesAreZero : Prop :=
  State.reset.busy = false ∧ ∀ a : Byte, readByte State.reset a = 0x00

/-- R204: an illegal byte is issued like any other, completes with ERR, ERRCODE 5, ERRCAUSE 6, ERRPOS 0, changes no other
register, and CMD reads it back. -/
def Obligations.IllegalCommandCompletesWithError : Prop :=
  ∀ (s : State) (b : Byte), s.busy = false →
    (b = 0x00 ∨ (0x06 ≤ b.toNat ∧ b.toNat ≤ 0x0F) ∨ (0x13 ≤ b.toNat ∧ b.toNat ≤ 0x1F) ∨
      (0x21 ≤ b.toNat ∧ b.toNat ≤ 0x2F) ∨ 0x32 ≤ b.toNat) →
    memWrite s 0x00 b =
      { s with op := b, busy := true, err := false, result := false, errcode := 0, errcause := 0, errpos := 0 } ∧
    ∃ t, engineStep (memWrite s 0x00 b) = .next t ∧
      t = { s with op := b, busy := false, err := true, result := false, errcode := 5, errcause := 6, errpos := 0 } ∧
      readByte t 0x00 = b

/-! ### The commands (41 to 44). `completed` and `failed` name every register a completion writes; the equations are whole
states, so each is also the command's frame. -/

/-- R133. -/
def Obligations.PackCommand : Prop :=
  ∀ s : State,
    (be s.operands.partIn.toList < 2 ^ 30 → be s.operands.tsIn.toList < 2 ^ 48 →
      ∃ b : Bytes 20, exec .pack s = .next { completed s with binOut := b } ∧
        be b.toList = be s.operands.tsIn.toList * 2 ^ 112 + be s.operands.partIn.toList * 2 ^ 80
          + be s.operands.randIn.toList) ∧
    (2 ^ 30 ≤ be s.operands.partIn.toList → exec .pack s = .next (failed s 3 5 0)) ∧
    (be s.operands.partIn.toList < 2 ^ 30 → 2 ^ 48 ≤ be s.operands.tsIn.toList →
      exec .pack s = .next (failed s 4 5 0))

/-- R134. -/
def Obligations.PackExampleCommand : Prop :=
  ∀ s : State, ∃ b : Bytes 20, exec .packExample s = .next { completed s with binOut := b } ∧
    be b.toList = 1234567890000 * 2 ^ 112 + 123456789 * 2 ^ 80 + be s.operands.randIn.toList

/-- R135. -/
def Obligations.PackRootCommand : Prop :=
  ∀ s : State,
    (be s.operands.tsIn.toList < 2 ^ 48 →
      ∃ b : Bytes 20, exec .packRoot s = .next { completed s with binOut := b } ∧
        be b.toList = be s.operands.tsIn.toList * 2 ^ 112 + be s.operands.rpartIn.toList % 2 ^ 30 * 2 ^ 80
          + be s.operands.randIn.toList) ∧
    (2 ^ 48 ≤ be s.operands.tsIn.toList → exec .packRoot s = .next (failed s 4 5 0))

/-- R136. -/
def Obligations.PackRelatedCommand : Prop :=
  ∀ s : State,
    (TextValid s.operands → be s.operands.tsIn.toList < 2 ^ 48 →
      ∃ b : Bytes 20, exec .packRelated s = .next { completed s with binOut := b } ∧
        be b.toList = be s.operands.tsIn.toList * 2 ^ 112 + textPartition s.operands.txtIn * 2 ^ 80
          + be s.operands.randIn.toList) ∧
    (TextValid s.operands → 2 ^ 48 ≤ be s.operands.tsIn.toList → exec .packRelated s = .next (failed s 4 5 0)) ∧
    (∀ cause pos, TextFaultAt s.operands cause pos → exec .packRelated s = .next (failed s 2 cause pos))

/-- R137. -/
def Obligations.RandomPartitionCommand : Prop :=
  ∀ s : State, ∃ b : Bytes 4, exec .randomPartition s = .next { completed s with partOut := b } ∧
    be b.toList = be s.operands.rpartIn.toList % 2 ^ 30

/-- R152. -/
def Obligations.EncodeCommand : Prop :=
  ∀ s : State,
    (s.operands.blen = 20 → s.operands.binIn[0].toNat < 0x40 →
      ∃ t : Bytes 32, exec .encode s = .next { completed s with txtOut := t } ∧
        ∀ k : Fin 32, t[k] = chr (BitVec.ofNat 5 (be s.operands.binIn.toList / 2 ^ (155 - 5 * k.val)))) ∧
    (s.operands.blen ≠ 20 → exec .encode s = .next (failed s 1 1 0)) ∧
    (s.operands.blen = 20 → 0x40 ≤ s.operands.binIn[0].toNat → exec .encode s = .next (failed s 1 4 0))

/-- R153. -/
def Obligations.DecodeCommand : Prop :=
  ∀ s : State,
    (TextValid s.operands → ∃ b : Bytes 20, exec .decode s = .next { completed s with binOut := b } ∧
      be b.toList = textValue s.operands.txtIn) ∧
    (∀ cause pos, TextFaultAt s.operands cause pos → exec .decode s = .next (failed s 2 cause pos))

/-- R154: the named constant, which is also the encoding of the all-zero binary. -/
def Obligations.ZeroCommand : Prop :=
  (∀ s : State, exec .zero s = .next { completed s with txtOut := Vector.replicate 32 0x30 }) ∧
  encodeText (Vector.replicate 20 0) = Vector.replicate 32 0x30

/-- R170. -/
def Obligations.ExtractPartitionCommand : Prop :=
  ∀ s : State,
    (TextValid s.operands → ∃ b : Bytes 4, exec .extractPartition s = .next { completed s with partOut := b } ∧
      be b.toList = textPartition s.operands.txtIn) ∧
    (∀ cause pos, TextFaultAt s.operands cause pos → exec .extractPartition s = .next (failed s 2 cause pos))

/-- R182. -/
def Obligations.ValidateTextCommand : Prop :=
  ∀ s : State,
    (TextValid s.operands → exec .validateText s = .next (completed s)) ∧
    (¬TextValid s.operands → exec .validateText s = .next { completed s with result := false })

/-- R183. -/
def Obligations.ValidateBinaryCommand : Prop :=
  ∀ s : State,
    (s.operands.blen = 20 → exec .validateBinary s = .next (completed s)) ∧
    (s.operands.blen ≠ 20 → exec .validateBinary s = .next { completed s with result := false })

/-- R180: the text check is Ok exactly on a TextId and otherwise reports the first fault; every candidate is one or the
other. -/
def Obligations.TextCheckReportsFirstFault : Prop :=
  ∀ o : Operands,
    (textCheck o = .ok ↔ TextValid o) ∧
    (∀ cause pos, textCheck o = .bad cause pos ↔ TextFaultAt o (errCauseOf cause) pos) ∧
    (TextValid o ∨ ∃ cause pos, TextFaultAt o cause pos)

/-! ### Laws of the codec -/

/-- R155: ENCODE then DECODE gives the binary back exactly when its first byte is below 0x40; in particular for packed
values with a timestamp below 2^46, and for no other packed value. -/
def Obligations.BinaryRoundTrip : Prop :=
  (∀ s : State, s.operands.blen = 20 → s.operands.binIn[0].toNat < 0x40 →
    ∃ t, exec .encode s = .next t ∧ t.err = false ∧
      ∀ s' : State, s'.operands.tlen = 32 → s'.operands.txtIn = t.txtOut →
        ∃ t', exec .decode s' = .next t' ∧ t'.err = false ∧ t'.binOut = s.operands.binIn) ∧
  (∀ s : State, s.operands.blen = 20 → 0x40 ≤ s.operands.binIn[0].toNat →
    exec .encode s = .next (failed s 1 4 0)) ∧
  (∀ (p : BitVec 30) (t : BitVec 48) (r : Bytes 10),
    (t.toNat < 2 ^ 46 → (pack p t r)[0].toNat < 0x40) ∧ (2 ^ 46 ≤ t.toNat → 0x40 ≤ (pack p t r)[0].toNat))

/-- R156: DECODE then ENCODE gives the text back, folded to lowercase. -/
def Obligations.TextRoundTrip : Prop :=
  ∀ s : State, TextValid s.operands →
    ∃ t, exec .decode s = .next t ∧ t.err = false ∧ t.binOut[0].toNat < 0x40 ∧
      ∀ s' : State, s'.operands.blen = 20 → s'.operands.binIn = t.binOut →
        ∃ t', exec .encode s' = .next t' ∧ t'.err = false ∧
          ∀ k : Fin 32, t'.txtOut[k] =
            if 0x41 ≤ s.operands.txtIn[k].toNat ∧ s.operands.txtIn[k].toNat ≤ 0x5A
            then s.operands.txtIn[k] + 0x20 else s.operands.txtIn[k]

/-- R157: every text ENCODE or ZERO writes is lowercase alphabet with its first character in `0`–`7`; every binary DECODE
writes has its first byte below 0x40. -/
def Obligations.WrittenResultsAreWellFormed : Prop :=
  (∀ (i : Instr) (s t : State), (i = .encode ∨ i = .zero) → exec i s = .next t → t.err = false →
    (0x30 ≤ t.txtOut[0].toNat ∧ t.txtOut[0].toNat ≤ 0x37) ∧ ∀ k : Fin 32, ∃ x : Symbol, t.txtOut[k] = chr x) ∧
  (∀ s t : State, exec .decode s = .next t → t.err = false → t.binOut[0].toNat < 0x40)

/-- R172: the symbol path and the full-decode path give the same partition. -/
def Obligations.ExtractionPathsAgree : Prop :=
  ∀ o : Operands, TextValid o →
    (partitionOfText o.txtIn).toNat = be ((decodeBin o.txtIn).toList.drop 6 |>.take 4) % 2 ^ 30

/-- R173: EXTRACT_PARTITION of the ENCODE of a PACK gives the packed partition, for every timestamp below 2^46. -/
def Obligations.PackedPartitionIsExtracted : Prop :=
  ∀ s t : State, exec .pack s = .next t → t.err = false → be s.operands.tsIn.toList < 2 ^ 46 →
    ∀ s' : State, s'.operands.blen = 20 → s'.operands.binIn = t.binOut →
      ∃ t', exec .encode s' = .next t' ∧ t'.err = false ∧
        ∀ s'' : State, s''.operands.tlen = 32 → s''.operands.txtIn = t'.txtOut →
          ∃ t'', exec .extractPartition s'' = .next t'' ∧ t''.err = false ∧
            be t''.partOut.toList = be s.operands.partIn.toList

/-- R139: what any pack command writes encodes exactly when its timestamp is below 2^46; past that ENCODE fails with
PREFIX. -/
def Obligations.EncodableTimestamps : Prop :=
  ∀ (i : Instr) (s t : State), i ∈ [Instr.pack, .packExample, .packRoot, .packRelated] →
    exec i s = .next t → t.err = false →
    ∀ s' : State, s'.operands.blen = 20 → s'.operands.binIn = t.binOut →
      ((if i = .packExample then 1234567890000 else be s.operands.tsIn.toList) < 2 ^ 46 →
        ∃ t', exec .encode s' = .next t' ∧ t'.err = false) ∧
      (2 ^ 46 ≤ (if i = .packExample then 1234567890000 else be s.operands.tsIn.toList) →
        exec .encode s' = .next (failed s' 1 4 0))

/-- R140: every partition has exactly four preimages under the mask, one for each value of the two bits it drops. -/
def Obligations.MaskHasFourPreimages : Prop :=
  ∀ p : BitVec 30,
    (∀ b : Bytes 4, maskPart b = p ↔ ∃ j : Fin 4, b = bytesBe 4 (j.val * 2 ^ 30 + p.toNat)) ∧
    (∀ j j' : Fin 4, bytesBe 4 (j.val * 2 ^ 30 + p.toNat) = bytesBe 4 (j'.val * 2 ^ 30 + p.toNat) → j = j')

/-- R113: the pattern a host writes for an integer, and that no integer outside a domain passes its check or packs. -/
def Obligations.PresentedIntegersAreJudgedExactly : Prop :=
  (∀ v : Int, 0 ≤ v → v < 2 ^ 64 → (be (presentInteger v).toList : Int) = v) ∧
  (∀ v : Int, v < 0 → -2 ^ 63 ≤ v → (be (presentInteger v).toList : Int) = 2 ^ 64 + v) ∧
  (∀ v : Int, (2 ^ 64 ≤ v ∨ v < -2 ^ 63) → presentInteger v = Vector.replicate 8 0xFF) ∧
  (∀ (o : Operands) (v : Int), o.partIn = presentInteger v →
    (inPartDomain (partOperand o) = true ↔ (0 ≤ v ∧ v < 2 ^ 30))) ∧
  (∀ (o : Operands) (v : Int), o.tsIn = presentInteger v →
    (inTsDomain (tsOperand o) = true ↔ (0 ≤ v ∧ v < 2 ^ 48))) ∧
  (∀ (s : State) (v : Int), s.operands.partIn = presentInteger v → ¬(0 ≤ v ∧ v < 2 ^ 30) →
    exec .pack s = .next (failed s 3 5 0)) ∧
  (∀ (s : State) (v : Int), s.operands.tsIn = presentInteger v → ¬(0 ≤ v ∧ v < 2 ^ 48) →
    exec .packRoot s = .next (failed s 4 5 0) ∧
    (be s.operands.partIn.toList < 2 ^ 30 → exec .pack s = .next (failed s 4 5 0)) ∧
    (TextValid s.operands → exec .packRelated s = .next (failed s 4 5 0)))

/-- R110, R111: however the host presents a length, the block judges the candidate as it would by the true one. Every length
but 32 fails the text check with LENGTH, whatever TXT_IN holds, and with it VALIDATE_TEXT, DECODE, EXTRACT_PARTITION and
PACK_RELATED; every length but 20 fails ENCODE and VALIDATE_BINARY. Lengths 32 and 20 fail no length check. -/
def Obligations.PresentedLengthsAreJudgedExactly : Prop :=
  ∀ (len : Nat) (s : State),
    (presentsTextLength len s.operands.tlen = true →
      (textCheck s.operands = .bad .length 0 ↔ len ≠ 32) ∧
      (exec .decode s = .next (failed s 2 1 0) ↔ len ≠ 32) ∧
      (exec .extractPartition s = .next (failed s 2 1 0) ↔ len ≠ 32) ∧
      (exec .packRelated s = .next (failed s 2 1 0) ↔ len ≠ 32) ∧
      (len ≠ 32 → exec .validateText s = .next { completed s with result := false }) ∧
      (exec .validateText s = .next (completed s) ↔
        (len = 32 ∧ (0x30 ≤ s.operands.txtIn[0].toNat ∧ s.operands.txtIn[0].toNat ≤ 0x37) ∧
          ∀ k : Fin 32, sym s.operands.txtIn[k] ≠ none))) ∧
    (presentsBinaryLength len s.operands.blen = true →
      (exec .encode s = .next (failed s 1 1 0) ↔ len ≠ 20) ∧
      (exec .validateBinary s = .next (completed s) ↔ len = 20) ∧
      (exec .validateBinary s = .next { completed s with result := false } ↔ len ≠ 20))

/-! ### Reset contents and results (70_reset_and_hazards.md R233) -/

/-- After reset TXT_OUT is no TextId, BIN_OUT and PART_OUT hold valid values, ERRCODE is 0 and no register holds a result
(R233); and in every run, whatever the host and the schedule do, resultReady holds of an output register exactly if BUSY = 0
and a command that writes it has completed with ERR = 0 since the last reset. That last clause unrolls resultReady, which is
the MODEL's reading (notes/assumptions/13.md): R233 says "only after"; that it is "exactly if", that BUSY is 0 (R240, R114)
and that no reset came after (R230) is inferred. -/
def Obligations.ResetContentsAreNotResults : Prop :=
  (State.reset.txtOut = Vector.replicate 32 0 ∧ sym 0x00 = none ∧
    ∀ o : Operands, o.txtIn = State.reset.txtOut → ¬TextValid o) ∧
  (State.reset.binOut = Vector.replicate 20 0 ∧
    ∀ s : State, s.operands.blen = 20 → s.operands.binIn = State.reset.binOut →
      exec .validateBinary s = .next (completed s)) ∧
  (State.reset.partOut = Vector.replicate 4 0 ∧ be State.reset.partOut.toList < 2 ^ 30) ∧
  (State.reset.errcode = 0 ∧ ∀ r : OutputReg, resultReady r 0 State.reset = false) ∧
  (∀ (h : HostAgent) (sch : List Turn) (r : OutputReg) (k : Nat),
    resultReady r k { State.reset with host := h, schedule := sch } = true ↔
      ((∃ t : State, Sys2Proof.core.run k { State.reset with host := h, schedule := sch } = .next t ∧ t.busy = false) ∧
       ∃ (j : Nat) (u v : State), j < k ∧
        Sys2Proof.core.run j { State.reset with host := h, schedule := sch } = .next u ∧ step u = .next v ∧
        nextIsCompletion u = true ∧ v.err = false ∧ (∃ i : Instr, decode u.op = .ok i ∧ writesOutput i = some r) ∧
        ∀ (m : Nat) (w : State), j < m → m < k →
          Sys2Proof.core.run m { State.reset with host := h, schedule := sch } = .next w → nextIsReset w = false))

/-- Until a command that writes it has completed with ERR = 0 an output register holds its reset contents, from then on
TXT_OUT is a canonical text, and what CMD and STATUS show as a result is one: so right after reset, and every event keeps
it, from every state (R46, R114, R157, R233). What counts as a result is the MODEL's reading (notes/assumptions/13.md). -/
def Obligations.OutputsHoldResetContentsUntilWritten : Prop :=
  ∀ r : OutputReg,
    ResultHistory r State.reset false ∧
    ∀ (s t : State) (held : Bool), ResultHistory r s held → step s = .next t → ResultHistory r t (holdsResultAfter r s t held)
end

