-- ==== Sys2Proof/Laws/Bytes.lean ====
section
/-! SUPPORT. The bit cursor, one bit at a time (42_transcoder.md R150), and the bytes of a big-endian sequence
(00_scope.md R9). -/

namespace Sys2Proof.Machine

/-- Byte k of `bytes_be_n(v)` (00_scope.md R9). -/
theorem bytesBe_getElem (n v k : Nat) (h : k < n) :
    (bytesBe n v)[k] = BitVec.ofNat 8 (v / 2 ^ (8 * (n - 1 - k))) := by
  simp [bytesBe]

/-- Replacing a bit gives that bit and keeps the others. -/
theorem setBitOfByte_getLsbD (x : Byte) (i j : Nat) (v : Bool) (hi : i < 8) (hj : j < 8) :
    (setBitOfByte x i v).getLsbD j = if j = i then v else x.getLsbD j := by
  unfold setBitOfByte
  have hsym : decide (i = j) = decide (j = i) := by simp [eq_comm]
  cases v
  · by_cases h : j = i
    · simp [h]
    · simp [h, hj]
  · by_cases h : j = i <;> simp [h, hi, hsym, BitVec.getLsbD_twoPow]

/-- Writing a bit through the cursor and reading any bit (42_transcoder.md R150). -/
theorem getBit_setBit {n : Nat} (b : Bytes n) (o o' : Nat) (v : Bool) (h : o < 8 * n) :
    getBit (setBit b o v) o' = if o' = o then v else getBit b o' := by
  have ho : o / 8 < n := by omega
  unfold getBit setBit
  simp only [ho, dif_pos]
  by_cases h' : o' / 8 < n
  · simp only [h', dif_pos]
    by_cases hq : o / 8 = o' / 8
    · simp only [hq, Vector.getElem_set_self]
      rw [setBitOfByte_getLsbD _ _ _ _ (by omega) (by omega)]
      have : (7 - o' % 8 = 7 - o % 8) ↔ (o' = o) := by omega
      simp [this]
    · rw [Vector.getElem_set_ne _ _ hq]
      have : o' ≠ o := fun e => hq (by rw [e])
      simp [this]
  · have : o' ≠ o := by omega
    simp [h', this]

end Sys2Proof.Machine
end

