-- ==== Sys2Proof/Laws/State.lean ====
section
/-! SUPPORT. One lemma per field per update of the state, so that no later proof unfolds an update. -/

namespace Sys2Proof.Machine

section
variable (s : State) (v w x : Byte) (n m : Nat) (o : CmdOutcome)

/-! `issue` -/

@[simp] theorem issue_op : (issue s v).op = v := rfl
@[simp] theorem issue_busy : (issue s v).busy = true := rfl
@[simp] theorem issue_err : (issue s v).err = false := rfl
@[simp] theorem issue_result : (issue s v).result = false := rfl
@[simp] theorem issue_ovr : (issue s v).ovr = s.ovr := rfl
@[simp] theorem issue_errcode : (issue s v).errcode = 0 := rfl
@[simp] theorem issue_errcause : (issue s v).errcause = 0 := rfl
@[simp] theorem issue_errpos : (issue s v).errpos = 0 := rfl
@[simp] theorem issue_operands : (issue s v).operands = s.operands := rfl
@[simp] theorem issue_binOut : (issue s v).binOut = s.binOut := rfl
@[simp] theorem issue_partOut : (issue s v).partOut = s.partOut := rfl
@[simp] theorem issue_txtOut : (issue s v).txtOut = s.txtOut := rfl
@[simp] theorem issue_rdata : (issue s v).rdata = s.rdata := rfl
@[simp] theorem issue_draws : (issue s v).draws = s.draws := rfl
@[simp] theorem issue_host : (issue s v).host = s.host := rfl
@[simp] theorem issue_schedule : (issue s v).schedule = s.schedule := rfl

/-! `resetBlock` -/

@[simp] theorem resetBlock_op : (resetBlock s).op = 0 := rfl
@[simp] theorem resetBlock_busy : (resetBlock s).busy = false := rfl
@[simp] theorem resetBlock_err : (resetBlock s).err = false := rfl
@[simp] theorem resetBlock_result : (resetBlock s).result = false := rfl
@[simp] theorem resetBlock_ovr : (resetBlock s).ovr = false := rfl
@[simp] theorem resetBlock_errcode : (resetBlock s).errcode = 0 := rfl
@[simp] theorem resetBlock_errcause : (resetBlock s).errcause = 0 := rfl
@[simp] theorem resetBlock_errpos : (resetBlock s).errpos = 0 := rfl
@[simp] theorem resetBlock_operands : (resetBlock s).operands = Operands.reset := rfl
@[simp] theorem resetBlock_binOut : (resetBlock s).binOut = Vector.replicate 20 0 := rfl
@[simp] theorem resetBlock_partOut : (resetBlock s).partOut = Vector.replicate 4 0 := rfl
@[simp] theorem resetBlock_txtOut : (resetBlock s).txtOut = Vector.replicate 32 0 := rfl
@[simp] theorem resetBlock_rdata : (resetBlock s).rdata = 0 := rfl
@[simp] theorem resetBlock_draws : (resetBlock s).draws = s.draws := rfl
@[simp] theorem resetBlock_host : (resetBlock s).host = s.host := rfl
@[simp] theorem resetBlock_schedule : (resetBlock s).schedule = s.schedule := rfl

/-! `hostAt` -/

@[simp] theorem hostAt_op : (hostAt s n v).op = s.op := rfl
@[simp] theorem hostAt_busy : (hostAt s n v).busy = s.busy := rfl
@[simp] theorem hostAt_err : (hostAt s n v).err = s.err := rfl
@[simp] theorem hostAt_result : (hostAt s n v).result = s.result := rfl
@[simp] theorem hostAt_ovr : (hostAt s n v).ovr = s.ovr := rfl
@[simp] theorem hostAt_errcode : (hostAt s n v).errcode = s.errcode := rfl
@[simp] theorem hostAt_errcause : (hostAt s n v).errcause = s.errcause := rfl
@[simp] theorem hostAt_errpos : (hostAt s n v).errpos = s.errpos := rfl
@[simp] theorem hostAt_operands : (hostAt s n v).operands = s.operands := rfl
@[simp] theorem hostAt_binOut : (hostAt s n v).binOut = s.binOut := rfl
@[simp] theorem hostAt_partOut : (hostAt s n v).partOut = s.partOut := rfl
@[simp] theorem hostAt_txtOut : (hostAt s n v).txtOut = s.txtOut := rfl
@[simp] theorem hostAt_rdata : (hostAt s n v).rdata = s.rdata := rfl
@[simp] theorem hostAt_draws : (hostAt s n v).draws = s.draws := rfl
@[simp] theorem hostAt_host : (hostAt s n v).host = ⟨s.host.program, n, v⟩ := rfl
@[simp] theorem hostAt_schedule : (hostAt s n v).schedule = s.schedule := rfl

/-! `turnTaken` -/

@[simp] theorem turnTaken_op : (turnTaken s).op = s.op := rfl
@[simp] theorem turnTaken_busy : (turnTaken s).busy = s.busy := rfl
@[simp] theorem turnTaken_err : (turnTaken s).err = s.err := rfl
@[simp] theorem turnTaken_result : (turnTaken s).result = s.result := rfl
@[simp] theorem turnTaken_ovr : (turnTaken s).ovr = s.ovr := rfl
@[simp] theorem turnTaken_errcode : (turnTaken s).errcode = s.errcode := rfl
@[simp] theorem turnTaken_errcause : (turnTaken s).errcause = s.errcause := rfl
@[simp] theorem turnTaken_errpos : (turnTaken s).errpos = s.errpos := rfl
@[simp] theorem turnTaken_operands : (turnTaken s).operands = s.operands := rfl
@[simp] theorem turnTaken_binOut : (turnTaken s).binOut = s.binOut := rfl
@[simp] theorem turnTaken_partOut : (turnTaken s).partOut = s.partOut := rfl
@[simp] theorem turnTaken_txtOut : (turnTaken s).txtOut = s.txtOut := rfl
@[simp] theorem turnTaken_rdata : (turnTaken s).rdata = s.rdata := rfl
@[simp] theorem turnTaken_draws : (turnTaken s).draws = s.draws := rfl
@[simp] theorem turnTaken_host : (turnTaken s).host = s.host := rfl
@[simp] theorem turnTaken_schedule : (turnTaken s).schedule = s.schedule.tail := rfl

/-! `placeCommand` -/

@[simp] theorem placeCommand_op : (placeCommand s n m).op = commandByteOfWord n m := rfl
@[simp] theorem placeCommand_busy : (placeCommand s n m).busy = true := rfl
@[simp] theorem placeCommand_err : (placeCommand s n m).err = s.err := rfl
@[simp] theorem placeCommand_result : (placeCommand s n m).result = s.result := rfl
@[simp] theorem placeCommand_ovr : (placeCommand s n m).ovr = s.ovr := rfl
@[simp] theorem placeCommand_errcode : (placeCommand s n m).errcode = s.errcode := rfl
@[simp] theorem placeCommand_errcause : (placeCommand s n m).errcause = s.errcause := rfl
@[simp] theorem placeCommand_errpos : (placeCommand s n m).errpos = s.errpos := rfl
@[simp] theorem placeCommand_operands : (placeCommand s n m).operands = s.operands := rfl
@[simp] theorem placeCommand_binOut : (placeCommand s n m).binOut = s.binOut := rfl
@[simp] theorem placeCommand_partOut : (placeCommand s n m).partOut = s.partOut := rfl
@[simp] theorem placeCommand_txtOut : (placeCommand s n m).txtOut = s.txtOut := rfl
@[simp] theorem placeCommand_rdata : (placeCommand s n m).rdata = s.rdata := rfl
@[simp] theorem placeCommand_draws : (placeCommand s n m).draws = s.draws := rfl
@[simp] theorem placeCommand_host : (placeCommand s n m).host = s.host := rfl
@[simp] theorem placeCommand_schedule : (placeCommand s n m).schedule = .engine :: s.schedule := rfl

/-! `completed` -/

@[simp] theorem completed_op : (completed s).op = s.op := rfl
@[simp] theorem completed_busy : (completed s).busy = false := rfl
@[simp] theorem completed_err : (completed s).err = false := rfl
@[simp] theorem completed_result : (completed s).result = true := rfl
@[simp] theorem completed_ovr : (completed s).ovr = s.ovr := rfl
@[simp] theorem completed_errcode : (completed s).errcode = 0 := rfl
@[simp] theorem completed_errcause : (completed s).errcause = 0 := rfl
@[simp] theorem completed_errpos : (completed s).errpos = 0 := rfl
@[simp] theorem completed_operands : (completed s).operands = s.operands := rfl
@[simp] theorem completed_binOut : (completed s).binOut = s.binOut := rfl
@[simp] theorem completed_partOut : (completed s).partOut = s.partOut := rfl
@[simp] theorem completed_txtOut : (completed s).txtOut = s.txtOut := rfl
@[simp] theorem completed_rdata : (completed s).rdata = s.rdata := rfl
@[simp] theorem completed_draws : (completed s).draws = s.draws := rfl
@[simp] theorem completed_host : (completed s).host = s.host := rfl
@[simp] theorem completed_schedule : (completed s).schedule = s.schedule := rfl

/-! `failed` -/

@[simp] theorem failed_op : (failed s v w x).op = s.op := rfl
@[simp] theorem failed_busy : (failed s v w x).busy = false := rfl
@[simp] theorem failed_err : (failed s v w x).err = true := rfl
@[simp] theorem failed_result : (failed s v w x).result = false := rfl
@[simp] theorem failed_ovr : (failed s v w x).ovr = s.ovr := rfl
@[simp] theorem failed_errcode : (failed s v w x).errcode = v := rfl
@[simp] theorem failed_errcause : (failed s v w x).errcause = w := rfl
@[simp] theorem failed_errpos : (failed s v w x).errpos = x := rfl
@[simp] theorem failed_operands : (failed s v w x).operands = s.operands := rfl
@[simp] theorem failed_binOut : (failed s v w x).binOut = s.binOut := rfl
@[simp] theorem failed_partOut : (failed s v w x).partOut = s.partOut := rfl
@[simp] theorem failed_txtOut : (failed s v w x).txtOut = s.txtOut := rfl
@[simp] theorem failed_rdata : (failed s v w x).rdata = s.rdata := rfl
@[simp] theorem failed_draws : (failed s v w x).draws = s.draws := rfl
@[simp] theorem failed_host : (failed s v w x).host = s.host := rfl
@[simp] theorem failed_schedule : (failed s v w x).schedule = s.schedule := rfl

/-! `applyWrites` and `complete` -/

@[simp] theorem applyWrites_op (w : Writes) : (applyWrites s w).op = s.op := by cases w <;> rfl
@[simp] theorem applyWrites_busy (w : Writes) : (applyWrites s w).busy = s.busy := by cases w <;> rfl
@[simp] theorem applyWrites_err (w : Writes) : (applyWrites s w).err = s.err := by cases w <;> rfl
@[simp] theorem applyWrites_result (w : Writes) : (applyWrites s w).result = s.result := by cases w <;> rfl
@[simp] theorem applyWrites_ovr (w : Writes) : (applyWrites s w).ovr = s.ovr := by cases w <;> rfl
@[simp] theorem applyWrites_errcode (w : Writes) : (applyWrites s w).errcode = s.errcode := by cases w <;> rfl
@[simp] theorem applyWrites_errcause (w : Writes) : (applyWrites s w).errcause = s.errcause := by cases w <;> rfl
@[simp] theorem applyWrites_errpos (w : Writes) : (applyWrites s w).errpos = s.errpos := by cases w <;> rfl
@[simp] theorem applyWrites_operands (w : Writes) : (applyWrites s w).operands = s.operands := by cases w <;> rfl
@[simp] theorem applyWrites_rdata (w : Writes) : (applyWrites s w).rdata = s.rdata := by cases w <;> rfl
@[simp] theorem applyWrites_draws (w : Writes) : (applyWrites s w).draws = s.draws := by cases w <;> rfl
@[simp] theorem applyWrites_host (w : Writes) : (applyWrites s w).host = s.host := by cases w <;> rfl
@[simp] theorem applyWrites_schedule (w : Writes) : (applyWrites s w).schedule = s.schedule := by cases w <;> rfl

@[simp] theorem complete_op : (complete o s).op = s.op := applyWrites_op s o.writes
@[simp] theorem complete_busy : (complete o s).busy = false := rfl
@[simp] theorem complete_err : (complete o s).err = errAfter o := rfl
@[simp] theorem complete_result : (complete o s).result = resultAfter o := rfl
@[simp] theorem complete_ovr : (complete o s).ovr = s.ovr := applyWrites_ovr s o.writes
@[simp] theorem complete_errcode : (complete o s).errcode = errcodeAfter o := rfl
@[simp] theorem complete_errcause : (complete o s).errcause = errcauseAfter o := rfl
@[simp] theorem complete_errpos : (complete o s).errpos = errposAfter o := rfl
@[simp] theorem complete_operands : (complete o s).operands = s.operands := applyWrites_operands s o.writes
@[simp] theorem complete_binOut : (complete o s).binOut = (applyWrites s o.writes).binOut := rfl
@[simp] theorem complete_partOut : (complete o s).partOut = (applyWrites s o.writes).partOut := rfl
@[simp] theorem complete_txtOut : (complete o s).txtOut = (applyWrites s o.writes).txtOut := rfl
@[simp] theorem complete_rdata : (complete o s).rdata = s.rdata := applyWrites_rdata s o.writes
@[simp] theorem complete_draws : (complete o s).draws = s.draws := applyWrites_draws s o.writes
@[simp] theorem complete_host : (complete o s).host = s.host := applyWrites_host s o.writes
@[simp] theorem complete_schedule : (complete o s).schedule = s.schedule := applyWrites_schedule s o.writes

end

end Sys2Proof.Machine
end

