-- ==== Sys2Proof/Laws/Ops.lean ====
section
/-! SUPPORT. What each shared operation can do, said once: later proofs cite these and do not unfold the operation. -/

namespace Sys2Proof.Machine

/-- A completion in terms of the outcome: success is `completed` after the writes, failure is `failed`. -/
theorem complete_ok (s : State) (w : Writes) : complete (.ok true w) s = completed (applyWrites s w) := by
  cases w <;> rfl

theorem complete_fail (s : State) (k : ErrKind) (c : ErrCause) (p : Byte) :
    complete (.fail k c p) s = failed s (errCodeOf k) (errCauseOf c) p := rfl

/-- Every outcome clears BUSY and leaves OP, OVR, the operands, rdata and the model's own fields
(40_host_interface.md R105). -/
theorem complete_frame (o : CmdOutcome) (s : State) :
    (complete o s).busy = false ∧ (complete o s).op = s.op ∧ (complete o s).ovr = s.ovr ∧
      (complete o s).operands = s.operands ∧ (complete o s).rdata = s.rdata ∧ (complete o s).draws = s.draws ∧
      (complete o s).host = s.host ∧ (complete o s).schedule = s.schedule := by
  simp

/-- A host write does one of four things (40_host_interface.md R102). -/
theorem memWrite_cases (s : State) (a v : Byte) :
    (s.busy = true ∧ memWrite s a v = { s with ovr := true }) ∨
    (s.busy = false ∧ locate a = .cmd ∧ memWrite s a v = issue s v) ∨
    (s.busy = false ∧ locate a = .status ∧ memWrite s a v = { s with ovr := ovrAfterStatusWrite s.ovr v }) ∨
    (s.busy = false ∧ locate a ≠ .cmd ∧ locate a ≠ .status ∧
      memWrite s a v = { s with operands := writeOperand s.operands (locate a) v }) := by
  unfold memWrite
  cases hb : s.busy with
  | true => simp
  | false => cases hl : locate a <;> simp

/-- A host read changes rdata and, where it is a draw, the count of draws, and nothing else (40_host_interface.md R101,
R107). -/
theorem busRead_cases (s : State) (a : Byte) :
    (readIsDraw s a = true ∧ busRead s a = { s with rdata := Config.outputDraw s.draws, draws := s.draws + 1 }) ∨
    (readIsDraw s a = false ∧ busRead s a = { s with rdata := registerByte s (locate a) }) := by
  unfold busRead memRead readByte
  cases readIsDraw s a <;> simp

/-- A clock edge resets, performs one transaction, or does nothing (40_host_interface.md R100). -/
theorem clockEdge_cases (p : Pins) (s : State) :
    (p.rst = true ∧ clockEdge p s = resetBlock s) ∨
    (p.rst = false ∧ p.sel = true ∧ p.we = true ∧ clockEdge p s = memWrite s p.addr p.wdata) ∨
    (p.rst = false ∧ p.sel = true ∧ p.we = false ∧ clockEdge p s = busRead s p.addr) ∨
    (p.rst = false ∧ p.sel = false ∧ clockEdge p s = s) := by
  unfold clockEdge
  cases p.rst <;> cases p.sel <;> cases p.we <;> simp

/-- A turn of the host program does one of four things (30_encoding.md R96). -/
theorem hostStep_cases (s : State) :
    (s.host.program[s.host.pc]? = none ∧ hostStep s = s) ∨
    (∃ a v, s.host.program[s.host.pc]? = some (.tx (.write a v)) ∧
      hostStep s = hostAt (memWrite s a v) (s.host.pc + 1) s.host.last) ∨
    (∃ a, s.host.program[s.host.pc]? = some (.tx (.read a)) ∧
      hostStep s = hostAt (busRead s a) (s.host.pc + 1) (readByte s a)) ∨
    (∃ mask target, s.host.program[s.host.pc]? = some (.bnz mask target) ∧
      hostStep s = hostAt s (if s.host.last &&& mask ≠ 0 then target else s.host.pc + 1) s.host.last) := by
  unfold hostStep
  split <;> rename_i h <;> simp [h]

/-- Every command's meaning is the completion of its outcome, a function of the operand registers alone
(40_host_interface.md R105, R106). -/
theorem exec_eq_complete (i : Instr) :
    ∃ cmd : Operands → CmdOutcome, ∀ s, exec i s = .next (complete (cmd s.operands) s) := by
  cases i
  · exact ⟨packCmd, fun _ => rfl⟩
  · exact ⟨packExampleCmd, fun _ => rfl⟩
  · exact ⟨packRootCmd, fun _ => rfl⟩
  · exact ⟨packRelatedCmd, fun _ => rfl⟩
  · exact ⟨randomPartitionCmd, fun _ => rfl⟩
  · exact ⟨encodeCmd, fun _ => rfl⟩
  · exact ⟨decodeCmd, fun _ => rfl⟩
  · exact ⟨fun _ => zeroCmd, fun _ => rfl⟩
  · exact ⟨extractPartitionCmd, fun _ => rfl⟩
  · exact ⟨validateTextCmd, fun _ => rfl⟩
  · exact ⟨validateBinaryCmd, fun _ => rfl⟩

/-- The engine's turn: a completion of some outcome while BUSY = 1, no event while BUSY = 0 (40_host_interface.md R104). -/
theorem engineStep_cases (s : State) :
    (s.busy = false ∧ engineStep s = .next s) ∨ (s.busy = true ∧ ∃ o, engineStep s = .next (complete o s)) := by
  unfold engineStep
  cases s.busy with
  | false => exact .inl ⟨rfl, rfl⟩
  | true =>
    refine .inr ⟨rfl, ?_⟩
    cases fetched s with
    | error e => exact ⟨illegalOutcome, rfl⟩
    | ok i =>
      obtain ⟨cmd, h⟩ := exec_eq_complete i
      exact ⟨cmd s.operands, h s⟩

/-- One step is one event of the agent whose turn it is (20_memory.md R60). -/
theorem step_cases (s : State) :
    (nextTurn s = .engine ∧ step s = engineStep (turnTaken s)) ∨
    (nextTurn s = .host ∧ step s = .next (hostStep (turnTaken s))) ∨
    (∃ p, nextTurn s = .pins p ∧ step s = .next (clockEdge p (turnTaken s))) := by
  unfold step takeTurn
  cases nextTurn s <;> simp

end Sys2Proof.Machine
end

