-- ==== Sys2Proof/Laws/PerInstr.lean ====
section
/-! SUPPORT. The statements about every command, one lemma per command. -/

namespace Sys2Proof.Laws

/-- The command's byte decodes to it and to nothing else (30_encoding.md R90). -/
def DecodeEncode.Statement (i : Instr) : Prop :=
  i.wellFormed = true ∧ decode (encode i) = .ok i ∧ decodeTableWord 8 (encode i).toNat = some i

theorem DecodeEncode.pack : DecodeEncode.Statement .pack := ⟨rfl, rfl, rfl⟩
theorem DecodeEncode.packExample : DecodeEncode.Statement .packExample := ⟨rfl, rfl, rfl⟩
theorem DecodeEncode.packRoot : DecodeEncode.Statement .packRoot := ⟨rfl, rfl, rfl⟩
theorem DecodeEncode.packRelated : DecodeEncode.Statement .packRelated := ⟨rfl, rfl, rfl⟩
theorem DecodeEncode.randomPartition : DecodeEncode.Statement .randomPartition := ⟨rfl, rfl, rfl⟩
theorem DecodeEncode.encode : DecodeEncode.Statement .encode := ⟨rfl, rfl, rfl⟩
theorem DecodeEncode.decode : DecodeEncode.Statement .decode := ⟨rfl, rfl, rfl⟩
theorem DecodeEncode.zero : DecodeEncode.Statement .zero := ⟨rfl, rfl, rfl⟩
theorem DecodeEncode.extractPartition : DecodeEncode.Statement .extractPartition := ⟨rfl, rfl, rfl⟩
theorem DecodeEncode.validateText : DecodeEncode.Statement .validateText := ⟨rfl, rfl, rfl⟩
theorem DecodeEncode.validateBinary : DecodeEncode.Statement .validateBinary := ⟨rfl, rfl, rfl⟩

end Sys2Proof.Laws
end

