-- ==== Sys2Proof/Laws/Step.lean ====
section
/-! SUPPORT. What one event can do to the state, said once: every whole-machine rule follows from `step_event`. -/

namespace Sys2Proof.Machine

/-- CMD is the one address whose write issues (10_state.md R21). -/
theorem locate_eq_cmd : ∀ a : Byte, locate a = .cmd ↔ a = 0x00 := by decide

/-- STATUS is the one address whose write can clear OVR (10_state.md R21). -/
theorem locate_eq_status : ∀ a : Byte, locate a = .status ↔ a = 0x01 := by decide

/-- A host write leaves the output registers, rdata, the host and the schedule as they are (40_host_interface.md R102). -/
theorem memWrite_frame (s : State) (a v : Byte) :
    (memWrite s a v).binOut = s.binOut ∧ (memWrite s a v).partOut = s.partOut ∧ (memWrite s a v).txtOut = s.txtOut ∧
      (memWrite s a v).rdata = s.rdata ∧ (memWrite s a v).draws = s.draws ∧ (memWrite s a v).host = s.host ∧
      (memWrite s a v).schedule = s.schedule := by
  rcases memWrite_cases s a v with ⟨_, h⟩ | ⟨_, _, h⟩ | ⟨_, _, h⟩ | ⟨_, _, _, h⟩ <;> rw [h] <;> simp

/-- A host read leaves all but rdata and the count of draws as it is (20_memory.md R56). -/
theorem busRead_frame (s : State) (a : Byte) : ∃ r d, busRead s a = { s with rdata := r, draws := d } := by
  rcases busRead_cases s a with ⟨_, h⟩ | ⟨_, h⟩
  · exact ⟨_, _, h⟩
  · exact ⟨_, s.draws, h⟩

/-- The five kinds of event that take `s` to `t`; `ho` is the host agent after it. -/
inductive StepEvent (s t : State) : Prop
  | reset (isReset : nextIsReset s = true) (eq : t = resetBlock (turnTaken s))
  | completion (notReset : nextIsReset s = false) (isCompletion : nextIsCompletion s = true) (tx : nextTx s = none)
      (o : CmdOutcome) (eq : t = complete o (turnTaken s)) (engine : engineStep (turnTaken s) = .next t)
  | write (notReset : nextIsReset s = false) (notCompletion : nextIsCompletion s = false) (a v : Byte)
      (tx : nextTx s = some (.write a v)) (ho : HostAgent) (eq : t = { memWrite (turnTaken s) a v with host := ho })
  | read (notReset : nextIsReset s = false) (notCompletion : nextIsCompletion s = false) (a : Byte)
      (tx : nextTx s = some (.read a)) (r : Byte) (d : Nat) (ho : HostAgent)
      (eq : t = { turnTaken s with host := ho, rdata := r, draws := d })
  | quiet (notReset : nextIsReset s = false) (notCompletion : nextIsCompletion s = false) (tx : nextTx s = none)
      (ho : HostAgent) (eq : t = { turnTaken s with host := ho })

/-- Every step that answers a next state is one of the five kinds of event (20_memory.md R60). -/
theorem step_event (s t : State) (h : step s = .next t) : StepEvent s t := by
  rcases step_cases s with ⟨hn, hs⟩ | ⟨hn, hs⟩ | ⟨p, hn, hs⟩
  · have h1 : nextIsReset s = false := by simp [nextIsReset, hn]
    have h2 : nextTx s = none := by simp [nextTx, hn]
    rw [hs] at h
    rcases engineStep_cases (turnTaken s) with ⟨hb, he⟩ | ⟨hb, o, he⟩
    · rw [he] at h
      cases h
      have hb' : s.busy = false := hb
      exact .quiet h1 (by simp [nextIsCompletion, hb']) h2 s.host rfl
    · have heng := h
      rw [he] at h
      cases h
      have hb' : s.busy = true := hb
      exact .completion h1 (by simp [nextIsCompletion, hb', hn]) h2 o rfl heng
  · have h1 : nextIsReset s = false := by simp [nextIsReset, hn]
    have hc : nextIsCompletion s = false := by simp [nextIsCompletion, hn]
    rw [hs] at h
    cases h
    rcases hostStep_cases (turnTaken s) with ⟨hp, e⟩ | ⟨a, v, hp, e⟩ | ⟨a, hp, e⟩ | ⟨m, tg, hp, e⟩ <;>
      have hp' : s.host.program[s.host.pc]? = _ := hp <;> rw [e]
    · exact .quiet h1 hc (by simp [nextTx, hn, hp']) s.host rfl
    · exact .write h1 hc a v (by simp [nextTx, hn, hp']) _ rfl
    · obtain ⟨r, d, hb⟩ := busRead_frame (turnTaken s) a
      exact .read h1 hc a (by simp [nextTx, hn, hp']) r d
        { s.host with pc := s.host.pc + 1, last := readByte (turnTaken s) a } (by unfold hostAt; rw [hb]; rfl)
    · exact .quiet h1 hc (by simp [nextTx, hn, hp']) _ rfl
  · have hc : nextIsCompletion s = false := by simp [nextIsCompletion, hn]
    rw [hs] at h
    cases h
    rcases clockEdge_cases p (turnTaken s) with ⟨hr, e⟩ | ⟨hr, h2, h3, e⟩ | ⟨hr, h2, h3, e⟩ | ⟨hr, h2, e⟩ <;> rw [e]
    · exact .reset (by simp [nextIsReset, hn, hr]) rfl
    · exact .write (by simp [nextIsReset, hn, hr]) hc p.addr p.wdata (by simp [nextTx, hn, hr, h2, h3])
        (memWrite (turnTaken s) p.addr p.wdata).host rfl
    · obtain ⟨r, d, hb⟩ := busRead_frame (turnTaken s) p.addr
      exact .read (by simp [nextIsReset, hn, hr]) hc p.addr (by simp [nextTx, hn, hr, h2, h3]) r d s.host (by rw [hb]; rfl)
    · exact .quiet (by simp [nextIsReset, hn, hr]) hc (by simp [nextTx, hn, hr, h2]) s.host rfl

/-- The engine's step while BUSY = 1 is exec of OP's command, or the illegal-command completion (40_host_interface.md
R106). -/
theorem engineStep_busy (s t : State) (hb : s.busy = true) (h : engineStep s = .next t) :
    (∃ i, decode s.op = .ok i ∧ exec i s = .next t) ∨
    ((∃ e, decode s.op = .error e) ∧ t = complete illegalOutcome s) := by
  unfold engineStep fetched at h
  rw [hb] at h
  cases hd : decode s.op with
  | ok i => rw [hd] at h; exact .inl ⟨i, rfl, h⟩
  | error e => rw [hd] at h; cases h; exact .inr ⟨⟨e, rfl⟩, rfl⟩

/-- A run of one event more is the event and then the run. -/
theorem core_run_succ (k : Nat) (s t : State) (h : step s = .next t) :
    Sys2Proof.core.run (k + 1) s = Sys2Proof.core.run k t := by
  have run_succ (M : Host.Core) (a b : M.State) (hab : M.step a = .next b) : M.run (k + 1) a = M.run k b := by
    rw [Host.Core.run, hab]
  exact run_succ Sys2Proof.core s t h

/-- The byte is a command's that writes the register (30_encoding.md R91). -/
theorem opWrites_iff (op : Byte) (r : OutputReg) :
    opWrites op r = true ↔ ∃ i, decode op = .ok i ∧ writesOutput i = some r := by
  unfold opWrites
  cases decode op <;> simp

/-- When a register holds a result after an event: no reset, and it held one or the event is the completion with ERR = 0 of a
command that writes it (70_reset_and_hazards.md R233). -/
theorem holdsResultAfter_iff (r : OutputReg) (s t : State) (held : Bool) :
    holdsResultAfter r s t held = true ↔
      (nextIsReset s = false ∧ (held = true ∨
        (nextIsCompletion s = true ∧ t.err = false ∧ ∃ i, decode s.op = .ok i ∧ writesOutput i = some r))) := by
  simp [holdsResultAfter, resultWritten, ← opWrites_iff, and_assoc]

/-- CMD and STATUS show no result while BUSY = 1 (40_host_interface.md R114). -/
theorem statusShowsResult_busy (r : OutputReg) (s : State) (h : s.busy = true) : statusShowsResult r s = false := by
  simp [statusShowsResult, h]

end Sys2Proof.Machine
end

