-- ==== Sys2Proof/Laws/Text.lean ====
section
/-! SUPPORT. The alphabet tables and the text check: what they are used for by the codec commands. -/

namespace Sys2Proof.Machine

/-- Decoding inverts encoding, symbol by symbol (30_encoding.md R81). -/
theorem sym_chr : ∀ s : Symbol, sym (chr s) = some s := by decide

/-- A digit `0`–`7` has a symbol, at most 7 (30_encoding.md R77). -/
theorem sym_of_firstCharOk : ∀ c : Byte, firstCharOk c = true → (sym c).any (fun x => decide (x.toNat ≤ 7)) = true := by
  decide

/-- A symbol's character begins a TextId exactly when the symbol is at most 7 (30_encoding.md R77). -/
theorem firstCharOk_chr : ∀ s : Symbol, firstCharOk (chr s) = decide (s.toNat ≤ 7) := by decide

/-- A search of positions 1 to 31 that finds nothing leaves no character without a symbol. -/
theorem firstBadPosition_none (t : Bytes 32) (h : firstBadPosition t = none) (j : Fin 31) :
    (sym t[j.succ]).isSome = true := by
  have hj := List.find?_eq_none.mp h j.succ (List.mem_map_of_mem (List.mem_finRange j))
  cases hs : sym t[j.succ] <;> simp_all

/-- A text that passed the check has a symbol at every position, so `symbolAt` never uses its default
(44_validator.md R180, R184). -/
theorem textCheck_ok_sym (o : Operands) (h : textCheck o = .ok) (k : Fin 32) :
    sym o.txtIn[k] = some (symbolAt o.txtIn k) := by
  have hs : (sym o.txtIn[k]).isSome = true := by
    unfold textCheck at h
    split at h
    · cases h
    split at h
    · cases h
    split at h
    · cases h
    · rename_i hc _ hn
      refine Fin.cases ?_ (fun j => firstBadPosition_none _ hn j) k
      have h0 := sym_of_firstCharOk o.txtIn[0] (by simpa using hc)
      cases hx : sym o.txtIn[(0 : Fin 32)] with
      | none => simp_all
      | some x => rfl
  unfold symbolAt
  cases hx : sym o.txtIn[k] <;> simp_all

/-- A gated command that succeeds had its text checked (44_validator.md R184). -/
theorem gated_cases (o : Operands) (cmd : CmdOutcome) :
    (textCheck o = .ok ∧ gated o cmd = cmd) ∨
    (∃ c p, textCheck o = .bad c p ∧ gated o cmd = .fail .invalidTextInput c p) := by
  unfold gated
  cases textCheck o <;> simp

end Sys2Proof.Machine
end

