-- ==== Sys2Proof/Tests/Slice0.lean ====
section
/-! SUPPORT. Small tests, their expected results taken from spec/ (the vectors TV-* are 95_test_vectors.md's), and for
every statement with hypotheses a witness that meets them, at the boundaries of its clauses. -/

namespace Sys2Proof.Tests

open Sys2Proof Sys2Proof.Machine

set_option maxRecDepth 8000

/-! ### Helpers -/

/-- The source's concrete scenario as text, EX_TXT. -/
def exText : Bytes 32 := #v[0x30, 0x34, 0x66, 0x71, 0x33, 0x79, 0x72, 0x34, 0x61, 0x30, 0x33, 0x6E, 0x71, 0x6B, 0x38, 0x6E,
  0x30, 0x30, 0x30, 0x30, 0x30, 0x30, 0x30, 0x30, 0x30, 0x30, 0x30, 0x30, 0x30, 0x30, 0x30, 0x30]

/-- EX_BIN. -/
def exBin : Bytes 20 := #v[0x01, 0x1F, 0x71, 0xFB, 0x04, 0x50, 0x07, 0x5B, 0xCD, 0x15, 0, 0, 0, 0, 0, 0, 0, 0, 0, 0]

/-- Operands that make every command succeed: the concrete scenario. -/
def exOps : Operands :=
  { Operands.reset with tlen := 32, blen := 20, tsIn := bytesBe 8 1234567890000, partIn := bytesBe 8 123456789
                        rpartIn := #v[0xC7, 0x5B, 0xCD, 0x15], binIn := exBin, txtIn := exText }

/-- The idle state with these operands. -/
def idle (o : Operands) : State := { State.reset with operands := o }

/-- A command of this opcode in flight, with these operands and this schedule. -/
def inFlight (op : Byte) (o : Operands) (sch : List Turn := []) : State :=
  { State.reset with op := op, busy := true, operands := o, schedule := sch }

/-- An idle state with a host program about to run. -/
def hosted (p : List HostStmt) : State := { State.reset with host := ⟨p, 0, 0⟩, schedule := [.host] }

/-- A state whose next event is a clock edge with these pins. -/
def pinned (s : State) (rst sel we : Bool) (a v : Byte) : State := { s with schedule := [.pins ⟨rst, sel, we, a, v⟩] }

/-- The next state, for tests only. -/
def after (x : Host.Outcome State Fault Refusal) : Option State :=
  match x with
  | .next t => some t
  | _ => none

/-- STATUS, ERRCODE, ERRCAUSE and ERRPOS after a step. -/
def recordAfter (x : Host.Outcome State Fault Refusal) : Option (List Byte) :=
  (after x).map fun t => [1, 2, 3, 4].map (readByte t)

/-! ### Well-formedness smoke: each check refuses an ill-formed term -/

theorem test_hosttx_read_with_data_refused : hostTxWordWellFormed 0x00101 = false ∧ hostTxWordWellFormed 0x00100 = true := by
  decide
theorem test_wrtxt_33_refused : (AsmLine.wrtxt (List.replicate 33 0x30)).wellFormed = false := by decide
theorem test_wrb_past_end_refused : (AsmLine.wrb 0xFF [1, 2]).wellFormed = false := by decide
theorem test_rdb_past_end_refused : (AsmLine.rdb 0xB0 81).wellFormed = false := by decide
theorem test_wr64_past_end_refused : (AsmLine.wr64 0xF9 0).wellFormed = false := by decide
theorem test_branch_out_of_program_refused : hostProgramWellFormed [.bnz 1 2] = false := by decide
theorem test_assemble_undefined_label_refused : assemble [.bnz 0x02 "fail"] = none := by decide

/-! ### Decoding: words written out from 30_encoding.md R90 and R95 -/

theorem test_decode_pack : decode 0b00000001 = .ok .pack := rfl
theorem test_decode_packExample : decode 0b00000010 = .ok .packExample := rfl
theorem test_decode_packRoot : decode 0b00000011 = .ok .packRoot := rfl
theorem test_decode_packRelated : decode 0b00000100 = .ok .packRelated := rfl
theorem test_decode_randomPartition : decode 0b00000101 = .ok .randomPartition := rfl
theorem test_decode_encode : decode 0b00010000 = .ok .encode := rfl
theorem test_decode_decode : decode 0b00010001 = .ok .decode := rfl
theorem test_decode_zero : decode 0b00010010 = .ok .zero := rfl
theorem test_decode_extractPartition : decode 0b00100000 = .ok .extractPartition := rfl
theorem test_decode_validateText : decode 0b00110000 = .ok .validateText := rfl
theorem test_decode_validateBinary : decode 0b00110001 = .ok .validateBinary := rfl
theorem test_decode_illegal : decode 0x00 = .error (.illegalCommand 0x00) ∧ decode 0x13 = .error (.illegalCommand 0x13) :=
  ⟨rfl, rfl⟩
theorem test_decodeTableWord : decodeTableWord 8 0x31 = some .validateBinary ∧ decodeTableWord 8 0xFF = none := by decide
theorem test_decode_hosttx : decodeHostTx 0x10001 = some (.write 0x00 0x01) ∧ decodeHostTx 0x00100 = some (.read 0x01) ∧
    decodeHostTx 0x00101 = none := by decide

/-- The HOSTTX listing of program P4 (95_test_vectors.md section 3). -/
theorem test_assemble_p4 :
    (assemble [.cmd .validateBinary, .wr 0x06 0x14, .poll, .clrovr, .wr 0x06 0x14, .exec .validateBinary]).map hostTxWords
      = some [0x10031, 0x10614, 0x00100, 0x10108, 0x10614, 0x10031, 0x00100] := by decide

/-- A label names the index of its statement, and POLL branches to its own read (30_encoding.md R96, R97). -/
theorem test_assemble_labels :
    assemble [.poll, .bnz 0x02 "fail", .rd 0x84, .label "fail"]
      = some [.tx (.read 1), .bnz 1 0, .bnz 2 4, .tx (.read 0x84)] := by decide

/-! ### One step of each command -/

theorem test_pack_scenario : (after (step (inFlight 0x01 exOps))).map (·.binOut) = some exBin := by decide  -- TV-PK-1
theorem test_pack_partition_checked_first :  -- TV-PK-8
    recordAfter (step (inFlight 0x01 { exOps with partIn := bytesBe 8 (2 ^ 30), tsIn := bytesBe 8 (2 ^ 48) })) =
      some [0x02, 3, 5, 0] := by decide
theorem test_packExample_ignores_operands :  -- TV-PK-10
    (after (step (inFlight 0x02 { exOps with partIn := Vector.replicate 8 0xFF, tsIn := Vector.replicate 8 0xFF }))).map
      (·.binOut) = some exBin := by decide
theorem test_packRoot_masks : (after (step (inFlight 0x03 exOps))).map (·.binOut) = some exBin := by decide  -- TV-PK-13
theorem test_packRelated_text_checked_first :  -- TV-PK-18
    recordAfter (step (inFlight 0x04 { exOps with txtIn := exText.set 0 0x38, tsIn := bytesBe 8 (2 ^ 48) })) =
      some [0x02, 2, 2, 0] := by decide
theorem test_packRelated_ignores_padding :  -- TV-PK-17
    (after (step (inFlight 0x04 { exOps with
      tsIn := bytesBe 8 0, txtIn := Vector.ofFn fun k => if k.val = 9 then 0x33 else if 10 ≤ k.val ∧ k.val < 16 then 0x7A else 0x30 }))).map
      (·.binOut) = some (bytesBe 20 ((2 ^ 30 - 1) * 2 ^ 80)) := by decide
theorem test_randomPartition_masks :  -- TV-PK-20
    (after (step (inFlight 0x05 exOps))).map (·.partOut) = some #v[0x07, 0x5B, 0xCD, 0x15] := by decide
theorem test_encode_scenario : (after (step (inFlight 0x10 exOps))).map (·.txtOut) = some exText := by decide  -- TV-ENC-1
theorem test_encode_length_before_prefix :  -- TV-ENC-10
    recordAfter (step (inFlight 0x10 { exOps with blen := 21, binIn := exBin.set 0 0x40 })) = some [0x02, 1, 1, 0] := by decide
theorem test_decode_uppercase :  -- TV-DEC-2
    (after (step (inFlight 0x11 { exOps with txtIn := (((((((exText.set 2 0x46).set 3 0x51).set 5 0x59).set 6 0x52).set 8 0x41).set 11 0x4E).set 12 0x51).set 13 0x4B }))).map
      (·.binOut) = some exBin := by decide
theorem test_decode_lowest_bad_position :  -- TV-DEC-12
    recordAfter (step (inFlight 0x11 { exOps with txtIn := ((Vector.replicate 32 0x30).set 3 0x75).set 7 0x6F })) =
      some [0x02, 2, 3, 3] := by decide
theorem test_zero_reads_no_operand :  -- TV-ZERO-2
    (after (step (inFlight 0x12 { exOps with blen := 0, binIn := Vector.replicate 20 0xFF }))).map (·.txtOut) =
      some (Vector.replicate 32 0x30) := by decide
theorem test_extract_scenario :  -- TV-EXT-1
    (after (step (inFlight 0x20 exOps))).map (·.partOut) = some #v[0x07, 0x5B, 0xCD, 0x15] := by decide
theorem test_extract_checks_all_characters :  -- TV-EXT-7
    recordAfter (step (inFlight 0x20 { exOps with txtIn := exText.set 20 0x6C })) = some [0x02, 2, 3, 20] := by decide
theorem test_validateText_bad_is_no_error :  -- TV-VAL-8
    recordAfter (step (inFlight 0x30 { exOps with txtIn := exText.set 31 0x55 })) = some [0x00, 0, 0, 0] := by decide
theorem test_validateText_scenario : recordAfter (step (inFlight 0x30 exOps)) = some [0x04, 0, 0, 0] := by decide  -- TV-SRC-1c
theorem test_validateBinary_ignores_bytes :  -- TV-VAL-10
    recordAfter (step (inFlight 0x31 { exOps with binIn := Vector.replicate 20 0xFF })) = some [0x04, 0, 0, 0] := by decide
theorem test_validateBinary_255 :  -- TV-VAL-13
    recordAfter (step (inFlight 0x31 { exOps with blen := 255 })) = some [0x00, 0, 0, 0] := by decide
theorem test_illegal_command : recordAfter (step (inFlight 0xFF exOps)) = some [0x02, 5, 6, 0] := by decide  -- TV-ILL-2

/-! ### The host protocol -/

theorem test_write_while_busy_dropped :  -- TV-HOST-4
    (memWrite (inFlight 0x01 Operands.reset) 0x05 0x20).ovr = true ∧
      (memWrite (inFlight 0x01 Operands.reset) 0x05 0x20).operands.tlen = 0 := by decide
theorem test_cmd_while_busy_dropped : (memWrite (inFlight 0x01 exOps) 0x00 0x11).op = 0x01 := by decide  -- TV-HOST-7
theorem test_status_write_clears_only_ovr :  -- TV-HOST-3, TV-HOST-5
    readByte (memWrite State.reset 0x01 0x07) 0x01 = 0x00 ∧
      readByte (memWrite { State.reset with ovr := true, result := true } 0x01 0x08) 0x01 = 0x04 := by decide
theorem test_status_while_busy : readByte (inFlight 0x31 exOps) 0x01 = 0x01 := by decide  -- 40_host_interface.md R101
theorem test_branch_not_taken_on_zero : (after (step (hosted [.bnz 0x01 0]))).map (·.host.pc) = some 1 := by decide
theorem test_reset_mid_command :  -- TV-HOST-8
    (after (step (pinned (inFlight 0x01 exOps) true true true 0x00 0x11))).map (·.busy) = some false := by decide
theorem test_run_ended : runEnded State.reset = true ∧ runEnded (inFlight 0x01 exOps) = false ∧  -- 40_host_interface.md R114
    runEnded (hosted [.tx (.read 1)]) = false := by decide
theorem test_generate_example_assembles :  -- 41_field_packer.md R138: ten bytes, CMD, POLL
    (assemble (generateExample (Vector.replicate 10 0))).map List.length = some 13 := by decide
theorem test_reset_is_idle : after (step State.reset) = some State.reset := by decide

/-! ### Witnesses: concrete states and operands that meet each statement's hypotheses -/

theorem witness_BigEndianBytesRoundTrip : (65535 : Nat) < 2 ^ (8 * 2) := by decide
theorem witness_StreamOffsetNamesValueBit : (0 : Nat) < 160 ∧ (159 : Nat) < 160 := by decide
theorem witness_CommandDecodeEncodeAgree : Instr.wellFormed .validateBinary = true ∧ decode 0x31 = .ok .validateBinary := by decide
theorem witness_HostTxWordFieldsRoundTrip : decodeHostTx 0x1FFFF = some (.write 0xFF 0xFF) := by decide
theorem witness_PseudoInstructionsExpand :
    (0xFF : Byte).toNat + [(7 : Byte)].length ≤ 256 ∧ [(7 : Byte)][0]? = some 7 ∧ (0 : Nat) < 1 ∧
      (0xFF : Byte).toNat + 1 ≤ 256 ∧ (List.replicate 32 (0x30 : Byte)).length ≤ 32 := by decide
theorem witness_InverseTableFoldsCase : sym 0x5A = some 31 ∧ sym 0x7A = some 31 := by decide
theorem witness_SymbolReadIsValueSlice : (31 : Nat) < 32 := by decide
theorem witness_BitCursorReadAfterWrite : 155 + 5 ≤ 8 * 20 ∧ 31 < 2 ^ 5 ∧ (154 < 155 ∨ 155 + 5 ≤ 154) := by decide
theorem witness_SymbolsCarryFieldBits :
    be (Vector.replicate 20 (0xFF : Byte)).toList =
      (BitVec.allOnes 48).toNat * 2 ^ 112 + (3 : BitVec 2).toNat * 2 ^ 110 + (BitVec.allOnes 30).toNat * 2 ^ 80
        + (BitVec.allOnes 80).toNat := by decide
theorem witness_ReadByteEveryAddress :
    ([0x07, 0x1C, 0x1F, 0x2A, 0x2F, 0x44, 0x4F, 0x88, 0x8F, 0xB0, 0xFF] : List Byte).all fun a => decide
      (a = 0x07 ∨ (0x1C ≤ a.toNat ∧ a.toNat ≤ 0x1F) ∨ (0x2A ≤ a.toNat ∧ a.toNat ≤ 0x2F) ∨
        (0x44 ≤ a.toNat ∧ a.toNat ≤ 0x4F) ∨ (0x88 ≤ a.toNat ∧ a.toNat ≤ 0x8F) ∨ 0xB0 ≤ a.toNat) := by decide
theorem witness_ReadsChangeNoRegister :
    ([0x00, 0x6F, 0x88, 0x8F, 0xB0] : List Byte).all fun b => decide
      (¬((inFlight 0x10 exOps).busy = true ∧
        ((0x70 ≤ b.toNat ∧ b.toNat ≤ 0x87) ∨ (0x90 ≤ b.toNat ∧ b.toNat ≤ 0xAF)))) := by decide
theorem witness_BusyOutputReadsAreFreshDraws :
    (inFlight 0x10 exOps).busy = true ∧ ([0x70, 0x87, 0x90, 0xAF] : List Byte).all fun a => decide
      ((0x70 ≤ a.toNat ∧ a.toNat ≤ 0x87) ∨ (0x90 ≤ a.toNat ∧ a.toNat ≤ 0xAF)) := by decide
theorem witness_HostWriteEveryAddress :
    (inFlight 0x10 exOps).busy = true ∧ (idle exOps).busy = false ∧
      ([0x02, 0x04, 0x07, 0x1C, 0x2F, 0x44, 0x70, 0x90, 0xFF] : List Byte).all fun a => decide
        ((0x02 ≤ a.toNat ∧ a.toNat ≤ 0x04) ∨ a = 0x07 ∨ (0x1C ≤ a.toNat ∧ a.toNat ≤ 0x1F) ∨
          (0x2A ≤ a.toNat ∧ a.toNat ≤ 0x2F) ∨ (0x44 ≤ a.toNat ∧ a.toNat ≤ 0x4F) ∨ 0x70 ≤ a.toNat) := by decide
theorem witness_OperandReadAfterWrite :
    (idle exOps).busy = false ∧ ([0x05, 0x06, 0x08, 0x1B, 0x20, 0x29, 0x30, 0x43, 0x50, 0x6F] : List Byte).all fun a => decide
      (a = 0x05 ∨ a = 0x06 ∨ (0x08 ≤ a.toNat ∧ a.toNat ≤ 0x1B) ∨ (0x20 ≤ a.toNat ∧ a.toNat ≤ 0x29) ∨
        (0x30 ≤ a.toNat ∧ a.toNat ≤ 0x43) ∨ (0x50 ≤ a.toNat ∧ a.toNat ≤ 0x6F)) := by decide
theorem witness_CommandIssueClearsErrorRecord : (idle exOps).busy = false := by decide
theorem witness_ClockEdgeDoesOneTransaction :
    ∃ idlePins write read reset : Pins,
      (idlePins.rst = false ∧ idlePins.sel = false) ∧ (write.rst = false ∧ write.sel = true ∧ write.we = true) ∧
        (read.rst = false ∧ read.sel = true ∧ read.we = false) ∧ reset.rst = true :=
  ⟨⟨false, false, false, 0, 0⟩, ⟨false, true, true, 0, 0⟩, ⟨false, true, false, 0, 0⟩, ⟨true, false, false, 0, 0⟩, by decide⟩
theorem witness_StepRunsDecodedCommand :
    (inFlight 0x10 exOps [.engine, .host]).busy = true ∧ decode (inFlight 0x10 exOps [.engine, .host]).op = .ok .encode ∧
      (inFlight 0x10 exOps [.engine, .host]).schedule = .engine :: [.host] ∧ (inFlight 0x10 exOps).schedule = [] := by decide
theorem witness_IdleEngineHasNoStep :
    ({ idle exOps with schedule := [.engine] }).busy = false ∧ ({ idle exOps with schedule := [.engine] }).schedule = [.engine] := by
  decide
theorem witness_HostTurnRunsNextStatement :
    (∃ (s : State) (a v : Byte), s.schedule = [.host] ∧ s.host.program[s.host.pc]? = some (.tx (.write a v))) ∧
    (∃ (s : State) (a : Byte), s.schedule = [.host] ∧ s.host.program[s.host.pc]? = some (.tx (.read a))) ∧
    (∃ (s : State) (m : Byte) (t : Nat), s.schedule = [.host] ∧ s.host.program[s.host.pc]? = some (.bnz m t)) ∧
    (∃ s : State, s.schedule = [.host] ∧ s.host.program[s.host.pc]? = none) :=
  ⟨⟨hosted [.tx (.write 5 32)], 5, 32, by decide⟩, ⟨hosted [.tx (.read 1)], 1, by decide⟩,
    ⟨hosted [.bnz 1 0], 1, 0, by decide⟩, ⟨hosted [], by decide⟩⟩
theorem witness_BusySetByIssueClearedByCompletion :
    ∃ s t : State, step s = .next t ∧ s.busy = false ∧ t.busy = true ∧ nextTx s = some (.write 0x00 0x10) :=
  ⟨hosted [.tx (.write 0 0x10)], _, rfl, by decide⟩
theorem witness_OverrunIsSticky_set :
    ∃ s t : State, step s = .next t ∧ nextIsReset s = false ∧ s.busy = true ∧ nextTx s = some (.write 0x05 0x20) :=
  ⟨pinned (inFlight 0x10 exOps) false true true 0x05 0x20, _, rfl, by decide⟩
theorem witness_OverrunIsSticky_cleared :
    ∃ s t : State, step s = .next t ∧ nextIsReset s = false ∧ s.busy = false ∧ nextTx s = some (.write 0x01 0x08) ∧
      (0x08 : Byte).getLsbD 3 = true :=
  ⟨pinned { idle exOps with ovr := true } false true true 0x01 0x08, _, rfl, by decide⟩
theorem witness_OverrunIsSticky_kept :
    ∃ s t : State, step s = .next t ∧ nextIsReset s = false ∧ s.busy = true ∧ s.ovr = true ∧ nextTx s = none :=
  ⟨{ inFlight 0x10 exOps with ovr := true }, _, rfl, by decide⟩
theorem witness_OverrunIsSticky_reset : ∃ s t : State, step s = .next t ∧ nextIsReset s = true ∧ s.ovr = true :=
  ⟨pinned { idle exOps with ovr := true } true false false 0 0, _, rfl, by decide⟩
theorem witness_OperandsChangeOnlyByHostWrites :
    ∃ s t : State, step s = .next t ∧ t.operands ≠ s.operands := ⟨hosted [.tx (.write 0x6F 1)], _, rfl, by decide⟩
theorem witness_OutputsChangeOnlyAtSuccess :
    (∃ s t : State, step s = .next t ∧ nextIsReset s = false ∧ t.binOut ≠ s.binOut) ∧
    (∃ s t : State, step s = .next t ∧ nextIsReset s = false ∧ t.partOut ≠ s.partOut) ∧
    (∃ s t : State, step s = .next t ∧ nextIsReset s = false ∧ t.txtOut ≠ s.txtOut) :=
  ⟨⟨inFlight 0x01 exOps, _, rfl, by decide⟩, ⟨inFlight 0x20 exOps, _, rfl, by decide⟩, ⟨inFlight 0x12 exOps, _, rfl, by decide⟩⟩
theorem witness_ErrorRecordChangesOnlyByCommands :
    ∃ s t : State, step s = .next t ∧ nextIsReset s = false ∧ nextTx s = none ∧ nextIsCompletion s = false :=
  ⟨idle exOps, _, rfl, by decide⟩
theorem witness_CompletionsWriteLegalTriples :
    (inFlight 0x10 exOps).busy = true ∧ ∃ t, engineStep (inFlight 0x10 exOps) = .next t := ⟨rfl, _, rfl⟩
theorem witness_OutcomeDependsOnlyOnOpAndOperands :
    ∃ s s' t t' : State, s ≠ s' ∧ s.busy = true ∧ s'.busy = true ∧ s.op = s'.op ∧ s.operands = s'.operands ∧
      engineStep s = .next t ∧ engineStep s' = .next t' :=
  ⟨inFlight 0x10 exOps, { inFlight 0x10 exOps with ovr := true }, _, _, by decide, rfl, rfl, rfl, rfl, rfl, rfl⟩
theorem witness_StepKeepsInvariant :
    ∃ s t : State, s.Inv ∧ s.busy = true ∧ step s = .next t := ⟨inFlight 0x10 exOps, _, ⟨by decide, by decide⟩, rfl, rfl⟩
theorem witness_IssuedCommandCompletesOrIsReset :
    (inFlight 0x10 exOps [.host, .host, .engine]).busy = true ∧
    (∀ p : Pins, .pins p ∈ (inFlight 0x10 exOps [.host, .host, .engine]).schedule → p.rst = false) ∧
    ∃ p : Pins, .pins p ∈ (pinned (inFlight 0x10 exOps) true false false 0 0).schedule ∧ p.rst = true := by
  simp [inFlight, pinned]
theorem witness_ResetClearsEveryRegister :
    (⟨true, true, true, 0, 1⟩ : Pins).rst = true ∧ ∃ t t' : State, step t = .next t' ∧ t.busy = true ∧ t'.busy = false :=
  ⟨rfl, inFlight 0x10 exOps, _, rfl, by decide⟩
theorem witness_IllegalCommandCompletesWithError :
    (idle exOps).busy = false ∧ ([0x00, 0x06, 0x0F, 0x13, 0x1F, 0x21, 0x2F, 0x32, 0xFF] : List Byte).all fun b => decide
      (b = 0x00 ∨ (0x06 ≤ b.toNat ∧ b.toNat ≤ 0x0F) ∨ (0x13 ≤ b.toNat ∧ b.toNat ≤ 0x1F) ∨
        (0x21 ≤ b.toNat ∧ b.toNat ≤ 0x2F) ∨ 0x32 ≤ b.toNat) := by decide
theorem witness_PackCommand :
    (∃ o : Operands, be o.partIn.toList = 2 ^ 30 - 1 ∧ be o.tsIn.toList = 2 ^ 48 - 1) ∧
    (∃ o : Operands, 2 ^ 30 = be o.partIn.toList) ∧
    (∃ o : Operands, be o.partIn.toList < 2 ^ 30 ∧ 2 ^ 48 = be o.tsIn.toList) :=
  ⟨⟨{ exOps with partIn := bytesBe 8 (2 ^ 30 - 1), tsIn := bytesBe 8 (2 ^ 48 - 1) }, by decide⟩,
    ⟨{ exOps with partIn := bytesBe 8 (2 ^ 30) }, by decide⟩, ⟨{ exOps with tsIn := bytesBe 8 (2 ^ 48) }, by decide⟩⟩
theorem witness_PackRootCommand :
    (∃ o : Operands, be o.tsIn.toList = 2 ^ 48 - 1) ∧ (∃ o : Operands, 2 ^ 48 = be o.tsIn.toList) :=
  ⟨⟨{ exOps with tsIn := bytesBe 8 (2 ^ 48 - 1) }, by decide⟩, ⟨{ exOps with tsIn := bytesBe 8 (2 ^ 48) }, by decide⟩⟩
theorem witness_TextValid : TextValid exOps := by unfold TextValid; decide
theorem witness_TextFaultAt_length : TextFaultAt { exOps with tlen := 31 } 1 0 ∧ TextFaultAt { exOps with tlen := 33 } 1 0 := by
  unfold TextFaultAt; decide
theorem witness_TextFaultAt_firstChar :
    TextFaultAt { exOps with txtIn := exText.set 0 0x38 } 2 0 ∧ TextFaultAt { exOps with txtIn := exText.set 0 0x2F } 2 0 := by
  unfold TextFaultAt; decide
theorem witness_TextFaultAt_alphabet :
    TextFaultAt { exOps with txtIn := exText.set 1 0x75 } 3 1 ∧ TextFaultAt { exOps with txtIn := exText.set 31 0x55 } 3 31 := by
  unfold TextFaultAt; decide
theorem witness_PackRelatedCommand :
    (TextValid exOps ∧ be exOps.tsIn.toList < 2 ^ 48) ∧
    (TextValid { exOps with tsIn := bytesBe 8 (2 ^ 48) } ∧ 2 ^ 48 ≤ be ({ exOps with tsIn := bytesBe 8 (2 ^ 48) }).tsIn.toList) := by
  unfold TextValid; decide
theorem witness_ValidateTextCommand : TextValid exOps ∧ ¬TextValid { exOps with tlen := 0 } := by unfold TextValid; decide
theorem witness_EncodeCommand :
    (∃ o : Operands, o.blen = 20 ∧ o.binIn[0].toNat = 0x3F) ∧ (∃ o : Operands, o.blen ≠ 20) ∧
    (∃ o : Operands, o.blen = 20 ∧ o.binIn[0].toNat = 0x40) :=
  ⟨⟨{ exOps with binIn := exBin.set 0 0x3F }, by decide⟩, ⟨{ exOps with blen := 19 }, by decide⟩,
    ⟨{ exOps with binIn := exBin.set 0 0x40 }, by decide⟩⟩
theorem witness_ValidateBinaryCommand : exOps.blen = 20 ∧ ({ exOps with blen := 21 }).blen ≠ 20 := by decide
theorem witness_BinaryRoundTrip :
    (idle exOps).operands.blen = 20 ∧ (idle exOps).operands.binIn[0].toNat < 0x40 ∧
      (∃ t, exec .encode (idle exOps) = .next t ∧ (idle exOps).operands.tlen = 32 ∧ (idle exOps).operands.txtIn = t.txtOut) ∧
      (2 ^ 46 - 1 : BitVec 48).toNat < 2 ^ 46 ∧ 2 ^ 46 ≤ (2 ^ 46 : BitVec 48).toNat :=
  ⟨by decide, by decide, ⟨_, rfl, by decide⟩, by decide, by decide⟩
theorem witness_TextRoundTrip :
    TextValid (idle exOps).operands ∧ ∃ t, exec .decode (idle exOps) = .next t ∧ (idle exOps).operands.blen = 20 ∧
      (idle exOps).operands.binIn = t.binOut := ⟨witness_TextValid, _, rfl, by decide⟩
theorem witness_WrittenResultsAreWellFormed :
    (∃ t, exec .encode (idle exOps) = .next t ∧ t.err = false) ∧ (∃ t, exec .zero (idle exOps) = .next t ∧ t.err = false) ∧
    (∃ t, exec .decode (idle exOps) = .next t ∧ t.err = false) := ⟨⟨_, rfl, by decide⟩, ⟨_, rfl, by decide⟩, ⟨_, rfl, by decide⟩⟩
theorem witness_PackedPartitionIsExtracted :
    be (idle exOps).operands.tsIn.toList < 2 ^ 46 ∧
    (∃ t, exec .pack (idle exOps) = .next t ∧ t.err = false ∧ (idle exOps).operands.binIn = t.binOut) ∧
    (∃ t', exec .encode (idle exOps) = .next t' ∧ (idle exOps).operands.txtIn = t'.txtOut) ∧
    (idle exOps).operands.blen = 20 ∧ (idle exOps).operands.tlen = 32 :=
  ⟨by decide, ⟨_, rfl, by decide⟩, ⟨_, rfl, by decide⟩, by decide, by decide⟩
theorem witness_EncodableTimestamps :
    (∃ t, exec .pack (idle exOps) = .next t ∧ t.err = false ∧ (idle exOps).operands.binIn = t.binOut ∧
      be (idle exOps).operands.tsIn.toList < 2 ^ 46) ∧
    (∃ s t : State, exec .pack s = .next t ∧ t.err = false ∧ be s.operands.tsIn.toList = 2 ^ 46 ∧ s.operands.blen = 20 ∧ s.operands.binIn = t.binOut) :=
  ⟨⟨_, rfl, by decide⟩,
    ⟨idle { exOps with partIn := bytesBe 8 0, tsIn := bytesBe 8 (2 ^ 46), binIn := bytesBe 20 (2 ^ 158) }, _, rfl, by decide⟩⟩
theorem witness_PresentedIntegersAreJudgedExactly :
    (∃ o : Operands, o.partIn = presentInteger (2 ^ 30 - 1) ∧ o.tsIn = presentInteger (2 ^ 48 - 1)) ∧
    (∃ o : Operands, o.partIn = presentInteger (-1) ∧ o.tsIn = presentInteger (2 ^ 48)) ∧
    ((0 : Int) ≤ 2 ^ 64 - 1 ∧ (2 ^ 64 - 1 : Int) < 2 ^ 64) ∧ ((-2 ^ 63 : Int) < 0 ∧ (-2 ^ 63 : Int) ≤ -2 ^ 63) ∧
    ((2 ^ 64 : Int) ≤ 2 ^ 64 ∨ (2 ^ 64 : Int) < -2 ^ 63) ∧
    (¬((0 : Int) ≤ 2 ^ 30 ∧ (2 ^ 30 : Int) < 2 ^ 30) ∧ ¬((0 : Int) ≤ 2 ^ 48 ∧ (2 ^ 48 : Int) < 2 ^ 48)) ∧
    (∃ s : State, s.operands.tsIn = presentInteger (2 ^ 48) ∧ be s.operands.partIn.toList < 2 ^ 30 ∧ TextValid s.operands) :=
  ⟨⟨{ exOps with partIn := presentInteger (2 ^ 30 - 1), tsIn := presentInteger (2 ^ 48 - 1) }, rfl, rfl⟩,
    ⟨{ exOps with partIn := presentInteger (-1), tsIn := presentInteger (2 ^ 48) }, rfl, rfl⟩, by decide, by decide,
    by decide, by decide, ⟨idle { exOps with tsIn := presentInteger (2 ^ 48) }, rfl, by decide, witness_TextValid⟩⟩
/-- A state that presents these lengths. -/
def presenting (tlen blen : Byte) : State := idle { exOps with tlen := tlen, blen := blen }

theorem witness_PresentedLengthsAreJudgedExactly_text :
    ([(0, 0), (31, 31), (32, 32), (33, 33), (255, 255), (256, 0xFF), (288, 33)] : List (Nat × Byte)).all fun x =>
      presentsTextLength x.1 (presenting x.2 0).operands.tlen := by decide
theorem witness_PresentedLengthsAreJudgedExactly_binary :
    ([(0, 0), (19, 19), (20, 20), (21, 21), (255, 255), (256, 0xFF), (276, 21)] : List (Nat × Byte)).all fun x =>
      presentsBinaryLength x.1 (presenting 0 x.2).operands.blen := by decide
theorem witness_ResetContentsAreNotResults :
    ({ exOps with txtIn := State.reset.txtOut }).txtIn = State.reset.txtOut ∧
    (idle { exOps with binIn := State.reset.binOut }).operands.blen = 20 ∧
    (idle { exOps with binIn := State.reset.binOut }).operands.binIn = State.reset.binOut := by decide
theorem witness_OutputsHoldResetContentsUntilWritten :
    ResultHistory .txtOut (inFlight 0x12 exOps) false ∧ ∃ t, step (inFlight 0x12 exOps) = .next t :=
  ⟨⟨fun _ => rfl, by decide, by decide⟩, _, rfl⟩

/-! ### Results and reset contents (70_reset_and_hazards.md R233) -/

theorem test_no_result_after_reset : resultReady .txtOut 0 State.reset = false ∧
    statusShowsResult .txtOut State.reset = false := by decide
theorem test_zero_makes_a_result :  -- a ZERO issued by the host and completed by the engine
    [0, 1, 2].map (fun k => resultReady .txtOut k { State.reset with host := ⟨[.tx (.write 0x00 0x12)], 0, 0⟩ }) =
      [false, false, true] := by decide
theorem test_failed_command_makes_none :  -- 95_test_vectors.md section 3: the failed ENCODE wrote nothing
    resultReady .txtOut 2 { State.reset with host := ⟨[.tx (.write 0x00 0x10)], 0, 0⟩ } = false := by decide

end Sys2Proof.Tests
end

section
/-! PROOFS. Big-endian byte sequences (00_scope.md R9, R10): the number of a concatenation, its bytes and its bits. -/

namespace Sys2Proof.Machine

@[simp] theorem be_nil : be [] = 0 := rfl

@[simp] theorem be_concat (bs : List Byte) (x : Byte) : be (bs ++ [x]) = be bs * 2 ^ 8 + x.toNat := by
  simp [be]

theorem be_append (xs ys : List Byte) : be (xs ++ ys) = be xs * 2 ^ (8 * ys.length) + be ys := by
  induction ys using List.reverseRecOn with
  | nil => simp
  | append_singleton ys y ih =>
    rw [← List.append_assoc, be_concat, ih, be_concat, List.length_append, List.length_singleton, Nat.mul_succ, pow_add]
    ring

theorem be_cons (x : Byte) (xs : List Byte) : be (x :: xs) = x.toNat * 2 ^ (8 * xs.length) + be xs := by
  simpa [be] using be_append [x] xs

theorem be_lt (bs : List Byte) : be bs < 2 ^ (8 * bs.length) := by
  induction bs using List.reverseRecOn with
  | nil => simp
  | append_singleton bs x ih =>
    rw [be_concat, List.length_append, List.length_singleton, Nat.mul_succ, pow_add]
    have hx : x.toNat < 2 ^ 8 := x.isLt
    omega

/-- The place of a byte in the number: each later byte shifts it up by eight bits. -/
theorem be_div_mod (bs : List Byte) (k : Nat) (hk : k < bs.length) :
    be bs / 2 ^ (8 * (bs.length - 1 - k)) % 2 ^ 8 = bs[k].toNat := by
  induction bs using List.reverseRecOn with
  | nil => simp at hk
  | append_singleton bs x ih =>
    have hx : x.toNat < 2 ^ 8 := x.isLt
    rw [List.length_append, List.length_singleton] at hk
    by_cases hlast : k = bs.length
    · subst hlast
      simpa using hx
    · have hk' : k < bs.length := by omega
      have hexp : 8 * ((bs ++ [x]).length - 1 - k) = 8 + 8 * (bs.length - 1 - k) := by
        rw [List.length_append, List.length_singleton]; omega
      have hdrop : (be bs * 2 ^ 8 + x.toNat) / 2 ^ 8 = be bs := by omega
      rw [be_concat, hexp, pow_add, ← Nat.div_div_eq_div_mul, hdrop, List.getElem_append_left hk', ih hk']

theorem be_eq_sum (bs : List Byte) :
    be bs = ∑ k : Fin bs.length, bs[k].toNat * 2 ^ (8 * (bs.length - 1 - k.val)) := by
  induction bs with
  | nil => rfl
  | cons x xs ih =>
    rw [be_cons, ih]
    simp [Fin.sum_univ_succ, Nat.sub_sub, Nat.add_comm 1]

/-! The same of a fixed-length register's bytes, in terms of its length. -/

theorem be_toList_lt {n : Nat} (b : Bytes n) : be b.toList < 2 ^ (8 * n) := by
  simpa only [Vector.length_toList] using be_lt b.toList

theorem be_toList_div_mod {n : Nat} (b : Bytes n) (k : Nat) (hk : k < n) :
    be b.toList / 2 ^ (8 * (n - 1 - k)) % 2 ^ 8 = b[k].toNat := by
  obtain ⟨⟨bs⟩, rfl⟩ := b
  exact be_div_mod bs k hk

theorem be_toList_eq_sum {n : Nat} (b : Bytes n) :
    be b.toList = ∑ k : Fin n, b[k].toNat * 2 ^ (8 * (n - 1 - k.val)) := by
  obtain ⟨⟨bs⟩, rfl⟩ := b
  exact be_eq_sum bs

/-! `bytes_be_n` and `be` undo each other. -/

/-- The last byte of `bytes_be_(n+1)(v)` is the lowest of `v`; the others are those of `v` without it. -/
theorem bytesBe_succ (n v : Nat) :
    (bytesBe (n + 1) v).toList = (bytesBe n (v / 2 ^ 8)).toList ++ [BitVec.ofNat 8 v] := by
  have hshift (k : Fin n) : v / 2 ^ (8 * (n - k.val)) = v / 2 ^ 8 / 2 ^ (8 * (n - 1 - k.val)) := by
    have hexp : 8 * (n - k.val) = 8 + 8 * (n - 1 - k.val) := by omega
    rw [hexp, pow_add, Nat.div_div_eq_div_mul]
  simp only [bytesBe, Vector.toList_ofFn, List.ofFn_succ_last, Nat.add_sub_cancel, Fin.val_castSucc, Fin.val_last, hshift,
    Nat.sub_self, Nat.mul_zero, pow_zero, Nat.div_one]

/-- Outside R9's domain too: `bytes_be_n` keeps the low `8n` bits. -/
theorem be_bytesBe (n v : Nat) : be (bytesBe n v).toList = v % 2 ^ (8 * n) := by
  induction n generalizing v with
  | zero => simp [bytesBe, Vector.toList_ofFn, Nat.mod_one]
  | succ n ih =>
    rw [bytesBe_succ, be_concat, ih, BitVec.toNat_ofNat, Nat.mul_succ, Nat.add_comm (8 * n), pow_add, Nat.mod_mul]
    ring

theorem bytesBe_be {n : Nat} (b : Bytes n) : bytesBe n (be b.toList) = b := by
  ext k hk : 1
  apply BitVec.eq_of_toNat_eq
  rw [bytesBe_getElem _ _ _ hk, BitVec.toNat_ofNat, be_toList_div_mod b k hk]

/-! The bit cursor and the two statements. -/

/-- Stream offset `o` is the `o`-th bit of the number from its most significant end, for a sequence of any length. -/
theorem getBit_eq_testBit_be {n : Nat} (b : Bytes n) (o : Nat) (ho : o < 8 * n) :
    getBit b o = (be b.toList).testBit (8 * n - 1 - o) := by
  have hk : o / 8 < n := by omega
  have hplace : 8 * n - 1 - o = 7 - o % 8 + 8 * (n - 1 - o / 8) := by omega
  have hlow : 7 - o % 8 < 8 := by omega
  calc getBit b o
      = b[o / 8].toNat.testBit (7 - o % 8) := by
        simp [getBit, hk, BitVec.getLsbD]
    _ = (be b.toList / 2 ^ (8 * (n - 1 - o / 8)) % 2 ^ 8).testBit (7 - o % 8) := by
        rw [be_toList_div_mod b (o / 8) hk]
    _ = (be b.toList).testBit (8 * n - 1 - o) := by
        rw [Nat.testBit_mod_two_pow, Nat.testBit_div_two_pow, ← hplace, decide_eq_true hlow, Bool.true_and]

/-- Settles O1: byte k is digit k of the number in base 256, so number and bytes determine each other. -/
theorem bigEndianBytesRoundTrip : Obligations.BigEndianBytesRoundTrip := by
  refine fun n => ⟨fun v hv => ?_, fun v k => ?_, fun b => ⟨be_toList_lt b, bytesBe_be b⟩, be_toList_eq_sum⟩
  · rw [be_bytesBe, Nat.mod_eq_of_lt hv]
  · rw [Fin.getElem_fin, bytesBe_getElem _ _ _ k.isLt, BitVec.toNat_ofNat]

/-- Settles O2: the case of 20 bytes. -/
theorem streamOffsetNamesValueBit : Obligations.StreamOffsetNamesValueBit :=
  fun b o ho => getBit_eq_testBit_be b o ho

end Sys2Proof.Machine
end

section
/-! PROOFS. What each event leaves of BUSY, OVR, the operand registers and the output registers (10_state.md R24, R27, R45
to R47). Every rule over all events is read off `step_event`. -/

namespace Sys2Proof.Machine

/-! A host write, register by register, from `memWrite_cases` (40_host_interface.md R102). -/

theorem memWrite_busy_iff (s : State) (a v : Byte) :
    (memWrite s a v).busy = true ↔ s.busy = true ∨ a = 0x00 := by
  rw [← locate_eq_cmd a]
  rcases memWrite_cases s a v with ⟨hb, h⟩ | ⟨hb, hl, h⟩ | ⟨hb, hl, h⟩ | ⟨hb, hl, _, h⟩
  · simp [h, hb]
  · simp [h, hl]
  · simp [h, hb, hl]
  · simp [h, hb, hl]

theorem memWrite_ovr (s : State) (a v : Byte) :
    (memWrite s a v).ovr =
      if s.busy = true then true else if a = 0x01 ∧ v.getLsbD 3 = true then false else s.ovr := by
  simp only [← locate_eq_status]
  rcases memWrite_cases s a v with ⟨hb, h⟩ | ⟨hb, hl, h⟩ | ⟨hb, hl, h⟩ | ⟨hb, _, hl, h⟩
  · simp [h, hb]
  · simp [h, hb, hl]
  · simp [h, hb, hl, ovrAfterStatusWrite]
  · simp [h, hb, hl]

/-- A location of an operand register (10_state.md R45). -/
def Location.isOperand : Location → Bool
  | .tlen | .blen | .tsIn _ | .partIn _ | .rpartIn _ | .randIn _ | .binIn _ | .txtIn _ => true
  | .cmd | .status | .errcode | .errcause | .errpos | .binOut _ | .partOut _ | .txtOut _ | .reserved => false

theorem locate_isOperand : ∀ a : Byte, (locate a).isOperand = true ↔
    (a = 0x05 ∨ a = 0x06 ∨ (0x08 ≤ a.toNat ∧ a.toNat ≤ 0x1B) ∨ (0x20 ≤ a.toNat ∧ a.toNat ≤ 0x29) ∨
      (0x30 ≤ a.toNat ∧ a.toNat ≤ 0x43) ∨ (0x50 ≤ a.toNat ∧ a.toNat ≤ 0x6F)) := by decide

theorem writeOperand_of_not_isOperand (o : Operands) (l : Location) (v : Byte) (h : l.isOperand = false) :
    writeOperand o l v = o := by
  cases l with
  | cmd | status | errcode | errcause | errpos | binOut _ | partOut _ | txtOut _ | reserved => rfl
  | tlen | blen | tsIn _ | partIn _ | rpartIn _ | randIn _ | binIn _ | txtIn _ => cases h

theorem memWrite_operands_ne (s : State) (a v : Byte) (hne : (memWrite s a v).operands ≠ s.operands) :
    s.busy = false ∧ (locate a).isOperand = true := by
  rcases memWrite_cases s a v with ⟨_, h⟩ | ⟨_, _, h⟩ | ⟨_, _, h⟩ | ⟨hb, _, _, h⟩ <;> rw [h] at hne
  · exact absurd rfl hne
  · exact absurd rfl hne
  · exact absurd rfl hne
  · refine ⟨hb, ?_⟩
    by_contra hl
    exact hne (writeOperand_of_not_isOperand _ _ _ (by simpa using hl))

/-! The output register an outcome writes (30_encoding.md R91). -/

/-- The output register named by an outcome's writes. -/
def Writes.target : Writes → Option OutputReg
  | .none => Option.none
  | .binOut _ => some .binOut
  | .partOut _ => some .partOut
  | .txtOut _ => some .txtOut

theorem applyWrites_outputContents (s : State) (w : Writes) (r : OutputReg) (h : w.target ≠ some r) :
    outputContents r (applyWrites s w) = outputContents r s := by
  cases w with
  | none => rfl
  | binOut b =>
    cases r with
    | binOut => exact absurd rfl h
    | partOut | txtOut => rfl
  | partOut b =>
    cases r with
    | partOut => exact absurd rfl h
    | binOut | txtOut => rfl
  | txtOut b =>
    cases r with
    | txtOut => exact absurd rfl h
    | binOut | partOut => rfl

theorem complete_outputContents_ne (o : CmdOutcome) (s : State) (r : OutputReg)
    (hne : outputContents r (complete o s) ≠ outputContents r s) : o.writes.target = some r := by
  by_contra h
  have hc : outputContents r (complete o s) = outputContents r (applyWrites s o.writes) := by cases r <;> rfl
  exact hne (hc.trans (applyWrites_outputContents s o.writes r h))

theorem errAfter_of_target (o : CmdOutcome) (r : OutputReg) (h : o.writes.target = some r) : errAfter o = false := by
  cases o with
  | ok _ _ => rfl
  | fail _ _ _ => cases h

theorem packWithTimestamp_target (o : Operands) (p : BitVec 30) :
    (packWithTimestamp o p).writes.target = none ∨ (packWithTimestamp o p).writes.target = some .binOut := by
  unfold packWithTimestamp
  split
  · exact .inr rfl
  · exact .inl rfl

theorem packCmd_target (o : Operands) :
    (packCmd o).writes.target = none ∨ (packCmd o).writes.target = some .binOut := by
  unfold packCmd
  split
  · exact packWithTimestamp_target o _
  · exact .inl rfl

theorem encodeCmd_target (o : Operands) :
    (encodeCmd o).writes.target = none ∨ (encodeCmd o).writes.target = some .txtOut := by
  unfold encodeCmd
  split
  · exact .inl rfl
  split
  · exact .inl rfl
  · exact .inr rfl

/-- A text fault writes nothing, so a gated command writes at most what the command behind the gate writes. -/
theorem gated_target (o : Operands) (cmd : CmdOutcome) :
    (gated o cmd).writes.target = none ∨ (gated o cmd).writes.target = cmd.writes.target := by
  rcases gated_cases o cmd with ⟨_, h⟩ | ⟨_, _, _, h⟩ <;> rw [h]
  · exact .inr rfl
  · exact .inl rfl

theorem packRelatedCmd_target (o : Operands) :
    (packRelatedCmd o).writes.target = none ∨ (packRelatedCmd o).writes.target = some .binOut := by
  rcases gated_target o (packWithTimestamp o (partitionOfText o.txtIn)) with h | h
  · exact .inl h
  · unfold packRelatedCmd
    rw [h]
    exact packWithTimestamp_target o _

/-- Every command completes with an outcome that writes no output register, or the command's own (30_encoding.md R91). -/
theorem exec_writes_own_output (i : Instr) (s : State) :
    ∃ o, exec i s = .next (complete o s) ∧ (o.writes.target = none ∨ o.writes.target = writesOutput i) := by
  cases i with
  | pack => exact ⟨_, rfl, packCmd_target s.operands⟩
  | packExample => exact ⟨_, rfl, .inr rfl⟩
  | packRoot => exact ⟨_, rfl, packWithTimestamp_target s.operands _⟩
  | packRelated => exact ⟨_, rfl, packRelatedCmd_target s.operands⟩
  | randomPartition => exact ⟨_, rfl, .inr rfl⟩
  | encode => exact ⟨_, rfl, encodeCmd_target s.operands⟩
  | decode => exact ⟨_, rfl, gated_target s.operands _⟩
  | zero => exact ⟨_, rfl, .inr rfl⟩
  | extractPartition => exact ⟨_, rfl, gated_target s.operands _⟩
  | validateText => exact ⟨_, rfl, .inl rfl⟩
  | validateBinary => exact ⟨_, rfl, .inl rfl⟩

/-- R46 for the engine: an output register changes only by a completion without error of a command that writes it. -/
theorem engineStep_output_ne (r : OutputReg) (s t : State) (hb : s.busy = true) (h : engineStep s = .next t)
    (hne : outputContents r t ≠ outputContents r s) :
    t.err = false ∧ ∃ i, decode s.op = .ok i ∧ writesOutput i = some r := by
  rcases engineStep_busy s t hb h with ⟨i, hd, he⟩ | ⟨_, rfl⟩
  · obtain ⟨o, ho, hw⟩ := exec_writes_own_output i s
    cases ho.symm.trans he
    have htarget := complete_outputContents_ne o s r hne
    refine ⟨errAfter_of_target o r htarget, i, hd, ?_⟩
    rcases hw with hnone | hown
    · rw [hnone] at htarget
      cases htarget
    · exact hown.symm.trans htarget
  · cases complete_outputContents_ne illegalOutcome s r hne

/-- R46 for every event, and for each of the three output registers. -/
theorem step_output_ne (r : OutputReg) (s t : State) (h : step s = .next t) (hr : nextIsReset s = false)
    (hne : outputContents r t ≠ outputContents r s) :
    nextIsCompletion s = true ∧ t.err = false ∧ ∃ i, decode s.op = .ok i ∧ writesOutput i = some r := by
  have hsame : outputContents r (turnTaken s) = outputContents r s := by cases r <;> rfl
  cases step_event s t h with
  | reset isReset _ => simp [hr] at isReset
  | completion _ isCompletion _ o _ engine =>
    have hb : (turnTaken s).busy = true := (Bool.and_eq_true_iff.mp isCompletion).1
    exact ⟨isCompletion, engineStep_output_ne r (turnTaken s) t hb engine (by rwa [hsame])⟩
  | write _ _ a v _ ho eq =>
    obtain ⟨hbin, hpart, htxt, _⟩ := memWrite_frame (turnTaken s) a v
    exact absurd (by cases r <;> simp [eq, outputContents, hbin, hpart, htxt]) hne
  | read _ _ _ _ _ _ _ eq => exact absurd (by cases r <;> simp [eq, outputContents]) hne
  | quiet _ _ _ _ eq => exact absurd (by cases r <;> simp [eq, outputContents]) hne

/-! The commands listed as writers of each output register (10_state.md R40 to R42). -/

theorem writesOutput_eq_binOut (i : Instr) :
    writesOutput i = some .binOut ↔ i ∈ [Instr.pack, .packExample, .packRoot, .packRelated, .decode] := by
  cases i <;> decide

theorem writesOutput_eq_partOut (i : Instr) :
    writesOutput i = some .partOut ↔ i ∈ [Instr.extractPartition, .randomPartition] := by
  cases i <;> decide

theorem writesOutput_eq_txtOut (i : Instr) :
    writesOutput i = some .txtOut ↔ i ∈ [Instr.encode, .zero] := by
  cases i <;> decide

/-! Reset (10_state.md R47). -/

theorem registerByte_reset (l : Location) : registerByte State.reset l = 0x00 := by
  cases l <;> simp [registerByte, statusByte, State.reset, Operands.reset]

/-! The statements. -/

/-- Settles O27: each output register's change makes the event a completion of one of its writers. -/
theorem outputsChangeOnlyAtSuccess : Obligations.OutputsChangeOnlyAtSuccess := by
  intro s t h hr
  refine ⟨fun hne => ?_, fun hne => ?_, fun hne => ?_⟩
  · obtain ⟨hc, he, i, hd, hi⟩ := step_output_ne .binOut s t h hr (mt Vector.toList_inj.mp hne)
    exact ⟨hc, he, i, hd, (writesOutput_eq_binOut i).mp hi⟩
  · obtain ⟨hc, he, i, hd, hi⟩ := step_output_ne .partOut s t h hr (mt Vector.toList_inj.mp hne)
    exact ⟨hc, he, i, hd, (writesOutput_eq_partOut i).mp hi⟩
  · obtain ⟨hc, he, i, hd, hi⟩ := step_output_ne .txtOut s t h hr (mt Vector.toList_inj.mp hne)
    exact ⟨hc, he, i, hd, (writesOutput_eq_txtOut i).mp hi⟩

/-- Settles O24: a reset and a completion clear BUSY, a write may set it, a read and a quiet turn keep it. -/
theorem busySetByIssueClearedByCompletion : Obligations.BusySetByIssueClearedByCompletion := by
  intro s t h
  cases step_event s t h with
  | reset isReset eq => simp [isReset, eq]
  | completion notReset isCompletion tx o eq _ => simp [isCompletion, tx, eq]
  | write notReset notCompletion a v tx ho eq =>
    have hbusy : t.busy = true ↔ s.busy = true ∨ a = 0x00 := by rw [eq]; exact memWrite_busy_iff (turnTaken s) a v
    rw [hbusy]
    cases hb : s.busy <;> simp [notReset, notCompletion, tx]
  | read notReset notCompletion a tx r d ho eq => simp [notReset, notCompletion, tx, eq]
  | quiet notReset notCompletion tx ho eq => simp [notReset, notCompletion, tx, eq]

/-- Settles O25: only a write and a reset touch OVR; `memWrite_ovr` gives the write's three outcomes. -/
theorem overrunIsSticky : Obligations.OverrunIsSticky := by
  intro s t h
  cases step_event s t h with
  | reset isReset eq => simp [isReset, eq]
  | completion notReset isCompletion tx o eq _ => simp [notReset, tx, eq]
  | write notReset notCompletion a v tx ho eq =>
    have hovr : t.ovr = if s.busy = true then true else if a = 0x01 ∧ v.getLsbD 3 = true then false else s.ovr := by
      rw [eq]; exact memWrite_ovr (turnTaken s) a v
    have hclear : (∃ v' : Byte, nextTx s = some (.write 0x01 v') ∧ v'.getLsbD 3 = true) ↔
        a = 0x01 ∧ v.getLsbD 3 = true := by simp [tx, and_assoc]
    rw [hclear, hovr]
    refine ⟨fun hr => absurd (notReset.symm.trans hr) Bool.false_ne_true, fun _ hb _ => if_pos hb,
      fun _ hb hc => ?_, fun _ hdropped hcleared => ?_⟩
    · rw [if_neg (Bool.eq_false_iff.mp hb), if_pos hc]
    · have hb : s.busy ≠ true := fun hb => hdropped ⟨hb, a, v, tx⟩
      rw [if_neg hb, if_neg fun hc => hcleared ⟨Bool.eq_false_iff.mpr hb, hc⟩]
  | read notReset notCompletion a tx r d ho eq => simp [notReset, tx, eq]
  | quiet notReset notCompletion tx ho eq => simp [notReset, tx, eq]

/-- Settles O26: a completion keeps the operands, and of the other events only a reset and a write touch them. -/
theorem operandsChangeOnlyByHostWrites : Obligations.OperandsChangeOnlyByHostWrites := by
  refine ⟨fun i s t h => ?_, fun s t h hne => ?_⟩
  · obtain ⟨cmd, hcmd⟩ := exec_eq_complete i
    cases (hcmd s).symm.trans h
    exact complete_operands s _
  · cases step_event s t h with
    | reset isReset _ => exact .inl isReset
    | completion _ _ _ o eq _ => exact absurd (by rw [eq]; exact complete_operands (turnTaken s) o) hne
    | write _ _ a v tx ho eq =>
      obtain ⟨hb, hl⟩ := memWrite_operands_ne (turnTaken s) a v (by rw [eq] at hne; exact hne)
      exact .inr ⟨hb, a, v, tx, (locate_isOperand a).mp hl⟩
    | read _ _ a _ r d ho eq => exact absurd (by rw [eq]; rfl) hne
    | quiet _ _ _ ho eq => exact absurd (by rw [eq]; rfl) hne

/-- Settles O36: BUSY = 0, so no read is a draw, and every register byte is 0. -/
theorem resetValuesAreZero : Obligations.ResetValuesAreZero :=
  ⟨rfl, fun a => registerByte_reset (locate a)⟩

end Sys2Proof.Machine
end

section
/-! PROOFS. Every event has a next state, and a host read changes nothing that a read can show (20_memory.md R52, R56;
60_exceptions.md R200, R209). -/

namespace Sys2Proof.Machine

/-! Reads and the count of draws (40_host_interface.md R101, R107). -/

/-- The addresses of the output registers (10_state.md R21). -/
theorem locate_isOutput : ∀ a : Byte, (locate a).isOutput = true ↔
    ((0x70 ≤ a.toNat ∧ a.toNat ≤ 0x87) ∨ (0x90 ≤ a.toNat ∧ a.toNat ≤ 0xAF)) := by decide

theorem readIsDraw_iff (s : State) (a : Byte) : readIsDraw s a = true ↔
    s.busy = true ∧ ((0x70 ≤ a.toNat ∧ a.toNat ≤ 0x87) ∨ (0x90 ≤ a.toNat ∧ a.toNat ≤ 0xAF)) := by
  rw [readIsDraw, Bool.and_eq_true, locate_isOutput]

theorem memRead_snd_eq_draws (s : State) (a : Byte) : ∃ d : Nat, (memRead s a).2 = { s with draws := d } := by
  unfold memRead
  cases readIsDraw s a with
  | true => exact ⟨s.draws + 1, rfl⟩
  | false => exact ⟨s.draws, rfl⟩

/-- No register is the count of draws. -/
theorem registerByte_draws (s : State) (d : Nat) (l : Location) :
    registerByte { s with draws := d } l = registerByte s l := by
  cases l <;> rfl

/-- Only a read that is a draw depends on the count of draws. -/
theorem readByte_draws (s : State) (d : Nat) (b : Byte) (h : ¬readIsDraw s b = true) :
    readByte { s with draws := d } b = readByte s b := by
  have h' : ¬readIsDraw { s with draws := d } b = true := h
  rw [readByte, readByte, if_neg h', if_neg h, registerByte_draws]

/-! The statements. -/

/-- Settles O14: a read can change only the count of draws, on which a read that is no draw does not depend. -/
theorem readsChangeNoRegister : Obligations.ReadsChangeNoRegister := by
  refine fun s a => ⟨rfl, memRead_snd_eq_draws s a, fun b hb => ?_⟩
  obtain ⟨d, hd⟩ := memRead_snd_eq_draws s a
  rw [hd]
  exact readByte_draws s d b (mt (readIsDraw_iff s b).mp hb)

/-- Settles O31: the engine completes or stands still, a host statement and a clock edge are total. -/
theorem everyStepAnswersANextState : Obligations.EveryStepAnswersANextState := by
  intro s
  rcases step_cases s with ⟨_, hs⟩ | ⟨_, hs⟩ | ⟨p, _, hs⟩
  · rcases engineStep_cases (turnTaken s) with ⟨_, he⟩ | ⟨_, o, he⟩
    · exact ⟨turnTaken s, hs.trans he⟩
    · exact ⟨complete o (turnTaken s), hs.trans he⟩
  · exact ⟨hostStep (turnTaken s), hs⟩
  · exact ⟨clockEdge p (turnTaken s), hs⟩

end Sys2Proof.Machine
end

section
/-! PROOFS. The alphabet tables, the command byte and the host transaction word (30_encoding.md R80, R81, R90, R93 to
R95). -/

namespace Sys2Proof.Machine

/-! The alphabet. -/

/-- Settles O7: the table, entry by entry. -/
theorem forwardTableIsTheAlphabet : Obligations.ForwardTableIsTheAlphabet := by
  unfold Obligations.ForwardTableIsTheAlphabet
  decide

theorem chr_of_sym : ∀ c : Byte, (sym c).all (fun s => chr s == lower c) = true := by decide

/-- Settles O8: both directions of the tables, and a count of the bytes that have a symbol. -/
theorem inverseTableFoldsCase : Obligations.InverseTableFoldsCase := by
  refine ⟨sym_chr, fun c s hs => ?_, by decide⟩
  simpa [hs, lower] using chr_of_sym c

/-! The command byte. -/

theorem decode_encode (i : Instr) : decode (encode i) = .ok i := by
  cases i <;> rfl

/-- Each row of the decoder names the byte of its command, and no other row answers a command. -/
theorem encode_of_decode (b : Byte) (i : Instr) (h : decode b = .ok i) : encode i = b := by
  unfold decode at h
  split at h <;> cases h <;> exact BitVec.eq_of_toNat_eq (Eq.symm ‹_›)

theorem decode_eq_ok_iff (b : Byte) (i : Instr) : decode b = .ok i ↔ encode i = b :=
  ⟨encode_of_decode b i, fun h => h ▸ decode_encode i⟩

/-- Settles O3: the table is the graph of `encode`, one row per command. -/
theorem opcodeMapIsTheTable : Obligations.OpcodeMapIsTheTable := by
  intro b i
  rw [decode_eq_ok_iff]
  cases i <;> simp [encode, eq_comm]

/-- Settles O4: no command is ill-formed, so the hypothesis is not used. -/
theorem commandDecodeEncodeAgree : Obligations.CommandDecodeEncodeAgree :=
  ⟨fun i _ => decode_encode i, encode_of_decode⟩

/-! HOSTTX: every word is three fields, and the decoder is given by its value on the words of a write and of a read. -/

/-- `x ‖ y` as a number. -/
theorem toNat_append_eq_add {m n : Nat} (x : BitVec m) (y : BitVec n) : (x ++ y).toNat = x.toNat * 2 ^ n + y.toNat := by
  rw [BitVec.toNat_append, ← Nat.shiftLeft_add_eq_or_of_lt y.isLt, Nat.shiftLeft_eq]

/-- The word `W ‖ ADDR ‖ DATA` (30_encoding.md R95). -/
def hostTxWord (w : BitVec 1) (a v : Byte) : BitVec 17 := w ++ a ++ v

theorem encodeHostTx_write (a v : Byte) : encodeHostTx (.write a v) = hostTxWord 1#1 a v := rfl

theorem encodeHostTx_read (a : Byte) : encodeHostTx (.read a) = hostTxWord 0#1 a 0 := rfl

theorem hostTxWord_fields (x : BitVec 17) :
    hostTxWord (x.extractLsb' 16 1) (x.extractLsb' 8 8) (x.extractLsb' 0 8) = x := by
  have hhigh : (16 : Nat) = 8 + 8 := rfl
  have hlow : (8 : Nat) = 0 + 8 := rfl
  rw [hostTxWord, BitVec.extractLsb'_append_extractLsb'_eq_extractLsb' hhigh,
    BitVec.extractLsb'_append_extractLsb'_eq_extractLsb' hlow]
  exact BitVec.extractLsb'_eq_self

theorem hostTxWord_cases (x : BitVec 17) : ∃ a v : Byte, x = hostTxWord 1#1 a v ∨ x = hostTxWord 0#1 a v := by
  have hx := hostTxWord_fields x
  rcases BitVec.eq_zero_or_eq_one (x.extractLsb' 16 1) with hw | hw <;> rw [hw] at hx
  · exact ⟨_, _, .inr hx.symm⟩
  · exact ⟨_, _, .inl hx.symm⟩

theorem toNat_hostTxWord (w : BitVec 1) (a v : Byte) :
    (hostTxWord w a v).toNat = w.toNat * 2 ^ 16 + a.toNat * 2 ^ 8 + v.toNat := by
  rw [hostTxWord, toNat_append_eq_add, toNat_append_eq_add]
  ring

theorem getLsbD_hostTxWord (w : BitVec 1) (a v : Byte) : (hostTxWord w a v).getLsbD 16 = w.getLsbD 0 := by
  rw [hostTxWord, BitVec.getLsbD_append, BitVec.getLsbD_append]
  rfl

theorem extractLsb'_hostTxWord_addr (w : BitVec 1) (a v : Byte) : (hostTxWord w a v).extractLsb' 8 8 = a := by
  rw [hostTxWord, BitVec.extractLsb'_append_eq_of_le (Nat.le_refl 8)]
  exact BitVec.extractLsb'_append_eq_right

theorem extractLsb'_hostTxWord_data (w : BitVec 1) (a v : Byte) : (hostTxWord w a v).extractLsb' 0 8 = v :=
  BitVec.extractLsb'_append_eq_right

theorem decodeHostTx_write (a v : Byte) : decodeHostTx (hostTxWord 1#1 a v) = some (.write a v) := by
  have hw : (hostTxWord 1#1 a v).getLsbD 16 = true := getLsbD_hostTxWord 1#1 a v
  rw [decodeHostTx, hostTxWordWellFormed, hw, Bool.true_or, if_pos rfl, if_pos rfl, extractLsb'_hostTxWord_addr,
    extractLsb'_hostTxWord_data]

/-- A read's word has DATA = 0x00, by the model's reading of R95 (notes/assumptions/7.md). -/
theorem decodeHostTx_read (a v : Byte) :
    decodeHostTx (hostTxWord 0#1 a v) = if v = 0 then some (.read a) else none := by
  have hw : (hostTxWord 0#1 a v).getLsbD 16 = false := getLsbD_hostTxWord 0#1 a v
  rw [decodeHostTx, hostTxWordWellFormed, hw, Bool.false_or, extractLsb'_hostTxWord_data, extractLsb'_hostTxWord_addr]
  simp

theorem decodeHostTx_encodeHostTx (t : HostTx) : decodeHostTx (encodeHostTx t) = some t := by
  cases t with
  | read a => exact decodeHostTx_read a 0
  | write a v => exact decodeHostTx_write a v

theorem encodeHostTx_of_decodeHostTx (x : BitVec 17) (t : HostTx) (h : decodeHostTx x = some t) :
    encodeHostTx t = x := by
  obtain ⟨a, v, rfl | rfl⟩ := hostTxWord_cases x
  · rw [decodeHostTx_write] at h
    cases h
    rfl
  · rw [decodeHostTx_read] at h
    split at h <;> cases h
    next hv => rw [hv, encodeHostTx_read]

theorem decodeHostTx_eq_none_iff (x : BitVec 17) :
    decodeHostTx x = none ↔ x.toNat < 2 ^ 16 ∧ x.toNat % 256 ≠ 0 := by
  obtain ⟨a, v, rfl | rfl⟩ := hostTxWord_cases x
  · rw [decodeHostTx_write, toNat_hostTxWord, BitVec.toNat_ofNat]
    simp only [reduceCtorEq, false_iff]
    omega
  · have hv : v = 0 ↔ v.toNat = 0 := BitVec.toNat_inj.symm
    rw [decodeHostTx_read, toNat_hostTxWord, BitVec.toNat_ofNat, ite_eq_right_iff, hv]
    simp only [reduceCtorEq, imp_false]
    omega

/-- Settles O5: the word's number gives the field places; every word being a write's or a read's gives the rest. -/
theorem hostTxWordFieldsRoundTrip : Obligations.HostTxWordFieldsRoundTrip := by
  refine ⟨fun a v => ?_, fun a => ?_, rfl, rfl, decodeHostTx_encodeHostTx, encodeHostTx_of_decodeHostTx,
    decodeHostTx_eq_none_iff⟩
  · simp [encodeHostTx_write, toNat_hostTxWord]
  · simp [encodeHostTx_read, toNat_hostTxWord]

end Sys2Proof.Machine
end

section
/-! PROOFS. The symbols of a binary: which bits of the value, and of its fields, each carries (30_encoding.md R76, R77;
42_transcoder.md R150). -/

namespace Sys2Proof.Machine

/-! A read of the bit cursor, for a sequence of any length. -/

@[simp] theorem readBits_zero {n : Nat} (b : Bytes n) (o : Nat) : readBits b o 0 = 0 := rfl

theorem readBits_succ {n : Nat} (b : Bytes n) (o len : Nat) :
    readBits b o (len + 1) = readBits b o len * 2 + (getBit b (o + len)).toNat := by
  simp [readBits, List.range_succ]

/-- R150's read is a slice of the number: by induction on its length, each bit read going in at the low end. -/
theorem readBits_eq_slice {n : Nat} (b : Bytes n) (o len : Nat) (h : o + len ≤ 8 * n) :
    readBits b o len = be b.toList / 2 ^ (8 * n - o - len) % 2 ^ len := by
  induction len with
  | zero => simp [Nat.mod_one]
  | succ len ih =>
    have hshift : 8 * n - o - len = 8 * n - o - (len + 1) + 1 := by omega
    have hbit : 8 * n - 1 - (o + len) = 8 * n - o - (len + 1) := by omega
    rw [readBits_succ, ih (by omega), getBit_eq_testBit_be b _ (by omega), hbit, hshift, Nat.toNat_testBit, pow_succ,
      ← Nat.div_div_eq_div_mul, pow_succ' 2 len, Nat.mod_mul]
    ring

theorem readBits_lt {n : Nat} (b : Bytes n) (o len : Nat) (h : o + len ≤ 8 * n) : readBits b o len < 2 ^ len := by
  rw [readBits_eq_slice b o len h]
  exact Nat.mod_lt _ (Nat.two_pow_pos len)

/-- The same read as a field of the number held in a word of `w` bits, numbered from its low end. -/
theorem readBits_eq_extractLsb' {n w : Nat} (b : Bytes n) (x : BitVec w) (hx : be b.toList = x.toNat) (o len : Nat)
    (h : o + len ≤ 8 * n) : readBits b o len = (x.extractLsb' (8 * n - o - len) len).toNat := by
  rw [readBits_eq_slice b o len h, hx, BitVec.extractLsb'_toNat, Nat.shiftRight_eq_div_pow]

/-- Settles O11: the binary is the word `T ‖ p2 ‖ P ‖ R80`, and each symbol's bits fall inside one field, but for symbol 9,
which straddles `T` and `p2`. -/
theorem symbolsCarryFieldBits : Obligations.SymbolsCarryFieldBits := by
  intro T pad P R b hb
  have hword : be b.toList = (T ++ pad ++ P ++ R).toNat := by
    rw [hb, toNat_append_eq_add, toNat_append_eq_add, toNat_append_eq_add]
    ring
  refine ⟨fun k hk => ?_, ?_, fun j hj => ?_, fun j hj => ?_⟩ <;>
    rw [readBits_eq_extractLsb' b _ hword _ _ (by omega)]
  · rw [BitVec.extractLsb'_append_eq_of_le (by omega), BitVec.extractLsb'_append_eq_of_le (by omega),
      BitVec.extractLsb'_append_eq_of_le (by omega)]
    congr 2
    omega
  · rw [BitVec.extractLsb'_append_eq_of_le (by omega), BitVec.extractLsb'_append_eq_of_le (by omega),
      BitVec.extractLsb'_toNat, toNat_append_eq_add, toNat_append_eq_add, BitVec.extractLsb'_toNat]
    simp only [Nat.reduceMul, Nat.reduceSub, Nat.shiftRight_zero]
    omega
  · rw [BitVec.extractLsb'_append_eq_of_le (by omega), BitVec.extractLsb'_append_eq_of_add_le (by omega)]
    congr 2
    omega
  · rw [BitVec.extractLsb'_append_eq_of_add_le (by omega)]
    congr 2
    omega

/-! The first character (R77). -/

theorem encodeText_getElem (b : Bytes 20) (k : Nat) (hk : k < 32) :
    (encodeText b)[k] = chr (BitVec.ofNat 5 (readBits b (5 * k) 5)) := by
  simp [encodeText]

theorem firstCharOk_encodeText (b : Bytes 20) : firstCharOk (encodeText b)[0] = decide (readBits b 0 5 ≤ 7) := by
  rw [encodeText_getElem, firstCharOk_chr, BitVec.toNat_ofNat, Nat.mod_eq_of_lt (readBits_lt b _ _ (by omega))]

theorem firstSymbol_le_seven_iff (b : Bytes 20) : readBits b 0 5 ≤ 7 ↔ be b.toList / 2 ^ 158 = 0 := by
  have hlt := be_toList_lt b
  rw [readBits_eq_slice b 0 5 (by omega)]
  omega

/-- A packed binary as a number, its fields where R70 places them. -/
theorem be_pack (p : BitVec 30) (t : BitVec 48) (r : Bytes 10) :
    be (pack p t r).toList = t.toNat * 2 ^ 112 + p.toNat * 2 ^ 80 + be r.toList := by
  have hp : p.toNat % 2 ^ (8 * 4) = p.toNat := Nat.mod_eq_of_lt (by omega)
  have ht : t.toNat % 2 ^ (8 * 6) = t.toNat := Nat.mod_eq_of_lt t.isLt
  simp only [pack, partitionBytes, Vector.toList_append, be_append, be_bytesBe, hp, ht, Vector.length_toList]
  ring

/-- Settles O12: all forms are read off the top bits of the 160-bit value. -/
theorem firstCharacterRuleEquivalents : Obligations.FirstCharacterRuleEquivalents := by
  refine ⟨fun b => ⟨?_, firstSymbol_le_seven_iff b, ?_⟩, fun p t r => ?_⟩
  · exact decide_eq_decide.mp (firstCharOk_encodeText b)
  · have hb := be_toList_div_mod b 0 (by omega)
    have hlt := be_toList_lt b
    rw [firstSymbol_le_seven_iff]
    omega
  · have hr := be_toList_lt r
    rw [firstSymbol_le_seven_iff, be_pack]
    omega

end Sys2Proof.Machine
end

section
/-! PROOFS. The pseudo-instructions' expansions (30_encoding.md R97). -/

namespace Sys2Proof.Machine

/-! Runs of addresses. -/

theorem ofNat_toNat_add (base : Byte) (k : Nat) : BitVec.ofNat 8 (base.toNat + k) = base + BitVec.ofNat 8 k := by
  rw [BitVec.ofNat_add, BitVec.ofNat_toNat, BitVec.setWidth_eq]

theorem length_writeRun (base : Nat) (bs : List Byte) : (writeRun base bs).length = bs.length := List.length_mapIdx

theorem getElem?_writeRun (base : Byte) (bs : List Byte) (k : Nat) :
    (writeRun base.toNat bs)[k]? = bs[k]?.map fun b => .tx (.write (base + BitVec.ofNat 8 k) b) := by
  simp [writeRun, ofNat_toNat_add]

theorem length_readRun (base n : Nat) : (readRun base n).length = n := by
  simp [readRun]

theorem getElem?_readRun (base : Byte) (n k : Nat) (hk : k < n) :
    (readRun base.toNat n)[k]? = some (.tx (.read (base + BitVec.ofNat 8 k))) := by
  simp [readRun, hk, ofNat_toNat_add]

/-- Settles O6: a run's k-th statement is at address base + k; every other row is the expansion as written. -/
theorem pseudoInstructionsExpand : Obligations.PseudoInstructionsExpand := by
  intro labels n
  refine ⟨fun _ => rfl, rfl, fun _ => rfl, fun base bs _ => ?_, fun base m _ => ?_, fun s _ => ⟨_, rfl, rfl⟩,
    fun b => ⟨_, rfl, rfl⟩, fun _ _ => rfl, rfl⟩
  · refine ⟨writeRun base.toNat bs, rfl, length_writeRun _ bs, fun k b hk => ?_⟩
    rw [getElem?_writeRun, hk, Option.map_some]
  · exact ⟨readRun base.toNat m, rfl, length_readRun _ m, getElem?_readRun base m⟩

end Sys2Proof.Machine
end

section
/-! PROOFS. The next event, where the schedule gives it to the engine or to the host program (20_memory.md R60): the placed
command (40_host_interface.md R106) and the host's statements (30_encoding.md R96). -/

namespace Sys2Proof.Machine

/-! The engine's turn. -/

theorem engineStep_eq_exec (s : State) (i : Instr) (hb : s.busy = true) (hd : decode s.op = .ok i) :
    engineStep s = exec i s := by
  simp [engineStep, fetched, hb, hd]

/-- The placed engine turn is used up by the step that takes it. -/
theorem step_placeCommand (s : State) (nbits w : Nat) :
    step (placeCommand s nbits w) = engineStep { s with op := commandByteOfWord nbits w, busy := true } := rfl

theorem commandByteOfWord_toNat (b : Byte) : commandByteOfWord 8 b.toNat = b := by
  rw [commandByteOfWord, Nat.mod_eq_of_lt b.isLt, BitVec.ofNat_toNat, BitVec.setWidth_eq]

/-- Settles O21: the step is the engine's, on the command whose byte the table word is. -/
theorem placedCommandRunsNext : Obligations.PlacedCommandRunsNext := by
  intro s i
  rw [State.withFetchWord, step_placeCommand, commandByteOfWord_toNat]
  exact engineStep_eq_exec _ i rfl (decode_encode i)

/-! The host's turn. -/

theorem step_of_schedule_host (s : State) (rest : List Turn) (h : s.schedule = .host :: rest) :
    step s = .next (hostStep { s with schedule := rest }) := by
  simp [step, nextTurn, turnTaken, takeTurn, h]

theorem hostStep_of_write (s : State) (a v : Byte) (h : s.host.program[s.host.pc]? = some (.tx (.write a v))) :
    hostStep s = hostAt (memWrite s a v) (s.host.pc + 1) s.host.last := by
  simp [hostStep, h]

theorem hostStep_of_read (s : State) (a : Byte) (h : s.host.program[s.host.pc]? = some (.tx (.read a))) :
    hostStep s = hostAt (busRead s a) (s.host.pc + 1) (readByte s a) := by
  simp [hostStep, h]

theorem hostStep_of_bnz (s : State) (mask : Byte) (target : Nat)
    (h : s.host.program[s.host.pc]? = some (.bnz mask target)) :
    hostStep s = hostAt s (if s.host.last &&& mask = 0 then s.host.pc + 1 else target) s.host.last := by
  simp [hostStep, h]

theorem hostStep_of_ended (s : State) (h : s.host.program[s.host.pc]? = none) : hostStep s = s := by
  simp [hostStep, h]

/-- A read does not depend on whose turn comes next. -/
theorem readByte_schedule (s : State) (rest : List Turn) (a : Byte) :
    readByte { s with schedule := rest } a = readByte s a := by
  have hreg (l : Location) : registerByte { s with schedule := rest } l = registerByte s l := by cases l <;> rfl
  simp [readByte, readIsDraw, hreg]

theorem memWrite_host (s : State) (a v : Byte) : (memWrite s a v).host = s.host := by
  obtain ⟨_, _, _, _, _, h, _⟩ := memWrite_frame s a v
  exact h

theorem busRead_host (s : State) (a : Byte) : (busRead s a).host = s.host := by
  obtain ⟨r, d, h⟩ := busRead_frame s a
  rw [h]

theorem busRead_eq (s : State) (a : Byte) : busRead s a = { (memRead s a).2 with rdata := readByte s a } := rfl

/-- `hostAt` moves the host agent and nothing of the block. -/
theorem hostAt_host_restored (s : State) (pc : Nat) (last : Byte) (h : HostAgent) (hh : s.host = h) :
    { hostAt s pc last with host := h } = s := by
  subst hh
  rfl

/-- Settles O23: a transaction leaves the host agent as it is, so the turn is the transaction and then `hostAt`. -/
theorem hostTurnRunsNextStatement : Obligations.HostTurnRunsNextStatement := by
  intro s rest hs
  have hstep := step_of_schedule_host s rest hs
  refine ⟨fun a v hp => ?_, fun a hp => ?_, fun mask target hp => ?_, fun hp => ?_⟩
  · have hhost : (memWrite { s with schedule := rest } a v).host = s.host := memWrite_host _ a v
    rw [hostStep_of_write { s with schedule := rest } a v hp] at hstep
    exact ⟨_, hstep, by rw [hostAt_host, hhost], hostAt_host_restored _ _ _ _ hhost⟩
  · have hhost : (busRead { s with schedule := rest } a).host = s.host := busRead_host _ a
    rw [hostStep_of_read { s with schedule := rest } a hp, readByte_schedule] at hstep
    refine ⟨_, hstep, by rw [hostAt_host, hhost], ?_⟩
    rw [hostAt_host_restored _ _ _ _ hhost, busRead_eq, readByte_schedule]
  · rw [hstep, hostStep_of_bnz { s with schedule := rest } mask target hp]
    rfl
  · rw [hstep, hostStep_of_ended { s with schedule := rest } hp]

end Sys2Proof.Machine
end

section
/-! PROOFS. Host reads and writes, address by address (10_state.md R21; 40_host_interface.md R101 to R103, R107, R108):
every register byte has one address, so the statements about addresses are read off rules about locations. -/

namespace Sys2Proof.Machine

/-! The address map. -/

/-- The address of a location, the inverse of `locate`; for the reserved addresses the first of them. -/
def Location.address : Location → Byte
  | .cmd => 0x00
  | .status => 0x01
  | .errcode => 0x02
  | .errcause => 0x03
  | .errpos => 0x04
  | .tlen => 0x05
  | .blen => 0x06
  | .reserved => 0x07
  | .tsIn k => 0x08 + BitVec.ofNat 8 k.val
  | .partIn k => 0x10 + BitVec.ofNat 8 k.val
  | .rpartIn k => 0x18 + BitVec.ofNat 8 k.val
  | .randIn k => 0x20 + BitVec.ofNat 8 k.val
  | .binIn k => 0x30 + BitVec.ofNat 8 k.val
  | .txtIn k => 0x50 + BitVec.ofNat 8 k.val
  | .binOut k => 0x70 + BitVec.ofNat 8 k.val
  | .partOut k => 0x84 + BitVec.ofNat 8 k.val
  | .txtOut k => 0x90 + BitVec.ofNat 8 k.val

/-- Element k of an array at base b is at b + k, and no two arrays meet (10_state.md R21). -/
@[simp] theorem locate_address (l : Location) : locate l.address = l := by
  cases l with
  | cmd | status | errcode | errcause | errpos | tlen | blen | reserved => decide
  | tsIn k | partIn k => revert k; decide
  | rpartIn k | partOut k => revert k; decide
  | randIn k => revert k; decide
  | binIn k | binOut k => revert k; decide
  | txtIn k | txtOut k => revert k; decide

theorem address_locate : ∀ a : Byte, locate a ≠ .reserved → (locate a).address = a := by decide

/-- Only reserved addresses share a location. -/
theorem locate_inj {a b : Byte} (ha : locate a ≠ .reserved) (h : locate a = locate b) : a = b := by
  rw [← address_locate a ha, ← address_locate b (h ▸ ha), h]

theorem locate_reserved : ∀ a : Byte, (a = 0x07 ∨ (0x1C ≤ a.toNat ∧ a.toNat ≤ 0x1F) ∨
    (0x2A ≤ a.toNat ∧ a.toNat ≤ 0x2F) ∨ (0x44 ≤ a.toNat ∧ a.toNat ≤ 0x4F) ∨
    (0x88 ≤ a.toNat ∧ a.toNat ≤ 0x8F) ∨ 0xB0 ≤ a.toNat) →
    locate a = .reserved := by decide

/-- The read-only and reserved addresses (40_host_interface.md R102). -/
theorem locate_ignored : ∀ a : Byte, ((0x02 ≤ a.toNat ∧ a.toNat ≤ 0x04) ∨ a = 0x07 ∨
    (0x1C ≤ a.toNat ∧ a.toNat ≤ 0x1F) ∨ (0x2A ≤ a.toNat ∧ a.toNat ≤ 0x2F) ∨ (0x44 ≤ a.toNat ∧ a.toNat ≤ 0x4F) ∨
    0x70 ≤ a.toNat) →
    locate a ≠ .cmd ∧ locate a ≠ .status ∧ (locate a).isOperand = false := by decide

/-! Reads. -/

theorem readByte_of_not_isOutput (s : State) (a : Byte) (h : (locate a).isOutput = false) :
    readByte s a = registerByte s (locate a) := by
  simp [readByte, readIsDraw, h]

theorem readByte_of_idle (s : State) (a : Byte) (h : s.busy = false) : readByte s a = registerByte s (locate a) := by
  simp [readByte, readIsDraw, h]

theorem readByte_address (s : State) (l : Location) (h : l.isOutput = false) :
    readByte s l.address = registerByte s l := by
  rw [readByte_of_not_isOutput s _ (by rwa [locate_address]), locate_address]

theorem readByte_address_of_isOutput (s : State) (l : Location) (h : l.isOutput = true) :
    readByte s l.address = if s.busy then Config.outputDraw s.draws else registerByte s l := by
  simp [readByte, readIsDraw, h]

theorem toNat_statusByte (s : State) :
    (statusByte s).toNat = 8 * s.ovr.toNat + 4 * s.result.toNat + 2 * s.err.toNat + s.busy.toNat := by
  simp only [statusByte, toNat_append_eq_add, BitVec.toNat_ofBool, BitVec.toNat_ofNat]
  omega

theorem memRead_of_readIsDraw (s : State) (a : Byte) (h : readIsDraw s a = true) :
    memRead s a = (Config.outputDraw s.draws, { s with draws := s.draws + 1 }) := by
  simp [memRead, readByte, h]

/-- Settles O13: a byte of no output register reads as it stands, a byte of one is a draw while BUSY = 1. -/
theorem readByteEveryAddress : Obligations.ReadByteEveryAddress := by
  intro s
  refine ⟨readByte_address s .cmd rfl, ?_, readByte_address s .errcode rfl, readByte_address s .errcause rfl,
    readByte_address s .errpos rfl, readByte_address s .tlen rfl, readByte_address s .blen rfl,
    fun k => readByte_address s (.tsIn k) rfl, fun k => readByte_address s (.partIn k) rfl,
    fun k => readByte_address s (.rpartIn k) rfl, fun k => readByte_address s (.randIn k) rfl,
    fun k => readByte_address s (.binIn k) rfl, fun k => readByte_address s (.txtIn k) rfl,
    fun k => readByte_address_of_isOutput s (.binOut k) rfl, fun k => readByte_address_of_isOutput s (.partOut k) rfl,
    fun k => readByte_address_of_isOutput s (.txtOut k) rfl, fun a ha => ?_⟩
  · exact (congrArg BitVec.toNat (readByte_address s .status rfl)).trans (toNat_statusByte s)
  · have hl := locate_reserved a ha
    rw [readByte_of_not_isOutput s a (by rw [hl]; rfl), hl]
    rfl

/-- Settles O15: such a read is a draw. -/
theorem busyOutputReadsAreFreshDraws : Obligations.BusyOutputReadsAreFreshDraws :=
  fun s a hb ha => memRead_of_readIsDraw s a ((readIsDraw_iff s a).mpr ⟨hb, ha⟩)

/-! Writes. -/

theorem memWrite_busy (s : State) (a v : Byte) (hb : s.busy = true) : memWrite s a v = { s with ovr := true } := by
  simp [memWrite, hb]

theorem memWrite_of_locate_cmd (s : State) (a v : Byte) (hb : s.busy = false) (hl : locate a = .cmd) :
    memWrite s a v = issue s v := by
  simp [memWrite, hb, hl]

/-- Bit 3 is write-one-to-clear (10_state.md R27). -/
theorem ovrAfterStatusWrite_eq (ovr : Bool) (v : Byte) : ovrAfterStatusWrite ovr v = (ovr && !v.getLsbD 3) := by
  unfold ovrAfterStatusWrite
  cases v.getLsbD 3 <;> simp

theorem memWrite_of_locate_status (s : State) (a v : Byte) (hb : s.busy = false) (hl : locate a = .status) :
    memWrite s a v = { s with ovr := s.ovr && !v.getLsbD 3 } := by
  rw [← ovrAfterStatusWrite_eq]
  simp [memWrite, hb, hl]

theorem memWrite_of_ne (s : State) (a v : Byte) (hb : s.busy = false) (hcmd : locate a ≠ .cmd)
    (hstatus : locate a ≠ .status) :
    memWrite s a v = { s with operands := writeOperand s.operands (locate a) v } := by
  rcases memWrite_cases s a v with ⟨hb', _⟩ | ⟨_, h, _⟩ | ⟨_, h, _⟩ | ⟨_, _, _, h⟩
  · exact absurd (hb.symm.trans hb') Bool.false_ne_true
  · exact absurd h hcmd
  · exact absurd h hstatus
  · exact h

theorem memWrite_of_isOperand (s : State) (a v : Byte) (hb : s.busy = false) (h : (locate a).isOperand = true) :
    memWrite s a v = { s with operands := writeOperand s.operands (locate a) v } := by
  refine memWrite_of_ne s a v hb ?_ ?_ <;> intro hl <;> rw [hl] at h <;> cases h

theorem memWrite_address (s : State) (l : Location) (v : Byte) (hb : s.busy = false) (h : l.isOperand = true) :
    memWrite s l.address v = { s with operands := writeOperand s.operands l v } := by
  rw [memWrite_of_isOperand s _ v hb (by rwa [locate_address]), locate_address]

theorem memWrite_ignored (s : State) (a v : Byte) (hb : s.busy = false) (hcmd : locate a ≠ .cmd)
    (hstatus : locate a ≠ .status) (h : (locate a).isOperand = false) : memWrite s a v = s := by
  rw [memWrite_of_ne s a v hb hcmd hstatus, writeOperand_of_not_isOperand _ _ _ h]

/-- Settles O16: the four things a write can do, each at its addresses. -/
theorem hostWriteEveryAddress : Obligations.HostWriteEveryAddress := by
  refine fun s v => ⟨fun hb a => memWrite_busy s a v hb, fun hb => ⟨
    memWrite_of_locate_cmd s _ v hb (locate_address .cmd), memWrite_of_locate_status s _ v hb (locate_address .status),
    memWrite_address s .tlen v hb rfl, memWrite_address s .blen v hb rfl,
    fun k => memWrite_address s (.tsIn k) v hb rfl, fun k => memWrite_address s (.partIn k) v hb rfl,
    fun k => memWrite_address s (.rpartIn k) v hb rfl, fun k => memWrite_address s (.randIn k) v hb rfl,
    fun k => memWrite_address s (.binIn k) v hb rfl, fun k => memWrite_address s (.txtIn k) v hb rfl, fun a ha => ?_⟩⟩
  obtain ⟨hcmd, hstatus, hoperand⟩ := locate_ignored a ha
  exact memWrite_ignored s a v hb hcmd hstatus hoperand

/-- Settles O18: the CMD write of an idle block is `issue`. -/
theorem commandIssueClearsErrorRecord : Obligations.CommandIssueClearsErrorRecord :=
  fun s v hb => memWrite_of_locate_cmd s _ v hb (locate_address .cmd)

/-! Reading an operand register after a write to one. -/

section
variable (o : Operands) (l : Location) (v : Byte)

theorem writeOperand_tlen : (writeOperand o l v).tlen = if l = .tlen then v else o.tlen := by
  cases l <;> simp [writeOperand]

theorem writeOperand_blen : (writeOperand o l v).blen = if l = .blen then v else o.blen := by
  cases l <;> simp [writeOperand]

theorem writeOperand_tsIn (k : Fin 8) : (writeOperand o l v).tsIn[k] = if l = .tsIn k then v else o.tsIn[k] := by
  cases l <;> simp [writeOperand, Vector.getElem_set, Fin.ext_iff]

theorem writeOperand_partIn (k : Fin 8) :
    (writeOperand o l v).partIn[k] = if l = .partIn k then v else o.partIn[k] := by
  cases l <;> simp [writeOperand, Vector.getElem_set, Fin.ext_iff]

theorem writeOperand_rpartIn (k : Fin 4) :
    (writeOperand o l v).rpartIn[k] = if l = .rpartIn k then v else o.rpartIn[k] := by
  cases l <;> simp [writeOperand, Vector.getElem_set, Fin.ext_iff]

theorem writeOperand_randIn (k : Fin 10) :
    (writeOperand o l v).randIn[k] = if l = .randIn k then v else o.randIn[k] := by
  cases l <;> simp [writeOperand, Vector.getElem_set, Fin.ext_iff]

theorem writeOperand_binIn (k : Fin 20) : (writeOperand o l v).binIn[k] = if l = .binIn k then v else o.binIn[k] := by
  cases l <;> simp [writeOperand, Vector.getElem_set, Fin.ext_iff]

theorem writeOperand_txtIn (k : Fin 32) : (writeOperand o l v).txtIn[k] = if l = .txtIn k then v else o.txtIn[k] := by
  cases l <;> simp [writeOperand, Vector.getElem_set, Fin.ext_iff]

end

theorem registerByte_writeOperand (s : State) (l m : Location) (v : Byte) (hl : l.isOperand = true) :
    registerByte { s with operands := writeOperand s.operands l v } m = if l = m then v else registerByte s m := by
  cases m with
  | cmd | status | errcode | errcause | errpos | binOut _ | partOut _ | txtOut _ | reserved =>
    rw [if_neg (by rintro rfl; cases hl)]
    rfl
  | tlen => exact writeOperand_tlen s.operands l v
  | blen => exact writeOperand_blen s.operands l v
  | tsIn k => exact writeOperand_tsIn s.operands l v k
  | partIn k => exact writeOperand_partIn s.operands l v k
  | rpartIn k => exact writeOperand_rpartIn s.operands l v k
  | randIn k => exact writeOperand_randIn s.operands l v k
  | binIn k => exact writeOperand_binIn s.operands l v k
  | txtIn k => exact writeOperand_txtIn s.operands l v k

/-- Settles O17: an operand address shares its location with no other address. -/
theorem operandReadAfterWrite : Obligations.OperandReadAfterWrite := by
  intro s a v hb ha
  have hoperand := (locate_isOperand a).mpr ha
  have hread (b : Byte) : readByte (memWrite s a v) b = if locate a = locate b then v else readByte s b := by
    rw [memWrite_of_isOperand s a v hb hoperand, readByte_of_idle s b hb, readByte_of_idle _ b (by exact hb),
      registerByte_writeOperand s _ _ v hoperand]
  refine ⟨by rw [hread, if_pos rfl], fun b hne => ?_⟩
  rw [hread, if_neg fun h => hne (locate_inj ?_ h).symm]
  intro hl
  rw [hl] at hoperand
  cases hoperand

end Sys2Proof.Machine
end

section
/-! PROOFS. One clock edge (40_host_interface.md R100), and the engine's turn with and without a command in flight (R104
to R106; 20_memory.md R61). -/

namespace Sys2Proof.Machine

theorem clockEdge_of_rst (p : Pins) (s : State) (h : p.rst = true) : clockEdge p s = resetBlock s := by
  simp [clockEdge, h]

/-- Settles O19: a host read is `memRead` with its byte put on rdata; a reset does not look at the other pins. -/
theorem clockEdgeDoesOneTransaction : Obligations.ClockEdgeDoesOneTransaction := by
  refine fun p s => ⟨fun hrst hsel => ?_, fun hrst hsel hwe => ?_, fun hrst hsel hwe => ?_, fun hrst p' hrst' => ?_⟩
  · simp [clockEdge, hrst, hsel]
  · simp [clockEdge, hrst, hsel, hwe]
  · simp [clockEdge, hrst, hsel, hwe, busRead_eq]
  · rw [clockEdge_of_rst p s hrst, clockEdge_of_rst p' s hrst']

theorem step_of_schedule_engine (s : State) (rest : List Turn) (h : s.schedule = .engine :: rest) :
    step s = engineStep { s with schedule := rest } := by
  simp [step, nextTurn, turnTaken, takeTurn, h]

theorem turnTaken_of_schedule_nil (s : State) (h : s.schedule = []) : turnTaken s = s := by
  unfold turnTaken
  rw [h, List.tail_nil, ← h]

/-- Past its schedule the machine completes a command in flight first (70_reset_and_hazards.md R245). -/
theorem step_of_schedule_nil_of_busy (s : State) (h : s.schedule = []) (hb : s.busy = true) :
    step s = engineStep s := by
  have hturn : nextTurn s = .engine := by simp [nextTurn, defaultTurn, h, hb]
  rw [step, hturn, turnTaken_of_schedule_nil s h, takeTurn]

theorem engineStep_of_idle (s : State) (hb : s.busy = false) : engineStep s = .next s := by
  simp [engineStep, hb]

/-- Settles O20: either way the turn is the engine's, and it runs OP's command. -/
theorem stepRunsDecodedCommand : Obligations.StepRunsDecodedCommand := by
  refine fun s i hb hd => ⟨fun rest hs => ?_, fun hs => ?_⟩
  · rw [step_of_schedule_engine s rest hs]
    exact engineStep_eq_exec _ i hb hd
  · rw [step_of_schedule_nil_of_busy s hs hb, engineStep_eq_exec s i hb hd]

/-- Settles O22: the turn is used up and the engine stands still. -/
theorem idleEngineHasNoStep : Obligations.IdleEngineHasNoStep := by
  intro s rest hb hs
  rw [step_of_schedule_engine s rest hs]
  exact engineStep_of_idle _ hb

end Sys2Proof.Machine
end

section
/-! PROOFS. Presented integers and lengths (40_host_interface.md R110, R111, R113): each check is an equivalence with
the candidate's own number or length, whatever pattern the host chose for it. -/

namespace Sys2Proof.Machine

/-! The outcomes of a completion, told apart by the state after it. -/

theorem failed_inj (s : State) {code code' cause cause' pos pos' : Byte} :
    failed s code cause pos = failed s code' cause' pos' ↔ code = code' ∧ cause = cause' ∧ pos = pos' := by
  refine ⟨fun h => ⟨congrArg State.errcode h, congrArg State.errcause h, congrArg State.errpos h⟩, ?_⟩
  rintro ⟨rfl, rfl, rfl⟩
  rfl

theorem errCauseOf_eq_one (c : ErrCause) : errCauseOf c = 1 ↔ c = .length := by
  cases c <;> decide

theorem completed_result_inj (s : State) (r r' : Bool) :
    { completed s with result := r } = { completed s with result := r' } ↔ r = r' :=
  ⟨fun h => congrArg State.result h, fun h => h ▸ rfl⟩

/-! The text check (44_validator.md R180). -/

theorem toNat_eq_txtChars (v : Byte) : v.toNat = Config.txtChars ↔ v = 32 := BitVec.toNat_inj (y := 32)

theorem textCheck_of_length (o : Operands) (h : o.tlen.toNat ≠ Config.txtChars) : textCheck o = .bad .length 0 :=
  if_pos h

theorem textCheck_of_firstChar (o : Operands) (hlen : o.tlen.toNat = Config.txtChars)
    (h : firstCharOk o.txtIn[0] = false) : textCheck o = .bad .firstChar 0 := by
  simp [textCheck, hlen, h]

theorem textCheck_eq_length (o : Operands) : textCheck o = .bad .length 0 ↔ o.tlen.toNat ≠ Config.txtChars := by
  refine ⟨fun h hlen => ?_, textCheck_of_length o⟩
  rw [textCheck, if_neg (not_not.mpr hlen)] at h
  split at h
  · cases h
  · split at h <;> cases h

theorem firstBadPosition_eq_none (t : Bytes 32) (h : ∀ k : Fin 32, sym t[k] ≠ none) : firstBadPosition t = none := by
  refine List.find?_eq_none.mpr fun k _ => ?_
  simpa using h k

/-- The check passes exactly the TextIds. -/
theorem textCheck_eq_ok (o : Operands) : textCheck o = .ok ↔ TextValid o := by
  constructor
  · intro h
    have hlen : o.tlen.toNat = Config.txtChars := by
      by_contra hlen
      cases h.symm.trans (textCheck_of_length o hlen)
    have hfirst : firstCharOk o.txtIn[0] = true := by
      by_contra hfirst
      cases h.symm.trans (textCheck_of_firstChar o hlen (Bool.eq_false_iff.mpr hfirst))
    refine ⟨(toNat_eq_txtChars _).mp hlen, of_decide_eq_true hfirst, fun k => ?_⟩
    rw [textCheck_ok_sym o h k]
    exact Option.some_ne_none _
  · rintro ⟨hlen, hfirst, hsym⟩
    simp [textCheck, (toNat_eq_txtChars _).mpr hlen, firstCharOk, hfirst, firstBadPosition_eq_none o.txtIn hsym]

/-- A gated command whose own errors are not InvalidTextInput fails with LENGTH exactly when the text check does
(44_validator.md R184). -/
theorem complete_gated_eq_length (s : State) (cmd : CmdOutcome) (hcmd : errcodeAfter cmd ≠ 2) :
    complete (gated s.operands cmd) s = failed s 2 1 0 ↔ textCheck s.operands = .bad .length 0 := by
  rcases gated_cases s.operands cmd with ⟨hcheck, h⟩ | ⟨c, p, hcheck, h⟩ <;> rw [hcheck, h]
  · simp only [reduceCtorEq, iff_false]
    exact fun he => hcmd (congrArg State.errcode he)
  · rw [complete_fail, failed_inj, errCauseOf_eq_one]
    simp [errCodeOf]

theorem gated_of_textValid (o : Operands) (cmd : CmdOutcome) (h : TextValid o) : gated o cmd = cmd := by
  rw [gated, (textCheck_eq_ok o).mpr h]

/-! Presented integers (40_host_interface.md R113). -/

theorem presentInteger_of_nonneg (v : Int) (h0 : 0 ≤ v) (h : v < 2 ^ 64) : presentInteger v = bytesBe 8 v.toNat :=
  if_pos ⟨h0, h⟩

theorem presentInteger_of_neg (v : Int) (h0 : v < 0) (h : -2 ^ 63 ≤ v) :
    presentInteger v = bytesBe 8 (2 ^ 64 + v).toNat := by
  rw [presentInteger, if_neg (by omega), if_pos ⟨h, h0⟩]

theorem presentInteger_of_wide (v : Int) (h : 2 ^ 64 ≤ v ∨ v < -2 ^ 63) :
    presentInteger v = Vector.replicate 8 0xFF := by
  rw [presentInteger, if_neg (by omega), if_neg (by omega)]

theorem be_presentInteger_of_nonneg (v : Int) (h0 : 0 ≤ v) (h : v < 2 ^ 64) :
    (be (presentInteger v).toList : Int) = v := by
  rw [presentInteger_of_nonneg v h0 h, be_bytesBe, Nat.mod_eq_of_lt (by omega), Int.toNat_of_nonneg h0]

theorem be_presentInteger_of_neg (v : Int) (h0 : v < 0) (h : -2 ^ 63 ≤ v) :
    (be (presentInteger v).toList : Int) = 2 ^ 64 + v := by
  rw [presentInteger_of_neg v h0 h, be_bytesBe, Nat.mod_eq_of_lt (by omega), Int.toNat_of_nonneg (by omega)]

theorem be_presentInteger_of_wide (v : Int) (h : 2 ^ 64 ≤ v ∨ v < -2 ^ 63) :
    be (presentInteger v).toList = 2 ^ 64 - 1 := by
  rw [presentInteger_of_wide v h]
  decide

/-- A negative or wide integer is presented as a pattern with its top bit set, so no bound below that bit admits it. -/
theorem be_presentInteger_lt_iff (v : Int) (m : Nat) (hm : m ≤ 2 ^ 63) :
    be (presentInteger v).toList < m ↔ 0 ≤ v ∧ v < m := by
  by_cases hwide : 2 ^ 64 ≤ v ∨ v < -2 ^ 63
  · rw [be_presentInteger_of_wide v hwide]
    omega
  · by_cases h0 : 0 ≤ v
    · have hbe := be_presentInteger_of_nonneg v h0 (by omega)
      omega
    · have hbe := be_presentInteger_of_neg v (by omega) (by omega)
      omega

/-! The domain checks on the operand's number (41_field_packer.md R130). -/

/-- The high bits of a word are all 0 exactly when it is below their weight. -/
theorem extractLsb'_high_eq_zero_iff {k m : Nat} (x : BitVec (k + m)) : x.extractLsb' k m = 0 ↔ x.toNat < 2 ^ k := by
  have hx : x.toNat / 2 ^ k < 2 ^ m := Nat.div_lt_of_lt_mul (by rw [← pow_add]; exact x.isLt)
  rw [← BitVec.toNat_inj, BitVec.extractLsb'_toNat, Nat.shiftRight_eq_div_pow, Nat.mod_eq_of_lt hx]
  simp [Nat.div_eq_zero_iff]

/-- An 8-byte operand register as a 64-bit word keeps its number. -/
theorem toNat_ofNat_be (b : Bytes 8) : (BitVec.ofNat 64 (be b.toList)).toNat = be b.toList := by
  rw [BitVec.toNat_ofNat, Nat.mod_eq_of_lt (be_toList_lt b)]

theorem inPartDomain_iff (o : Operands) : inPartDomain (partOperand o) = true ↔ be o.partIn.toList < 2 ^ 30 := by
  rw [inPartDomain, beq_iff_eq, extractLsb'_high_eq_zero_iff (k := 30) (m := 34), partOperand, toNat_ofNat_be]

theorem inTsDomain_iff (o : Operands) : inTsDomain (tsOperand o) = true ↔ be o.tsIn.toList < 2 ^ 48 := by
  rw [inTsDomain, beq_iff_eq, extractLsb'_high_eq_zero_iff (k := 48) (m := 16), tsOperand, toNat_ofNat_be]

theorem inPartDomain_of_presented (o : Operands) (v : Int) (h : o.partIn = presentInteger v) :
    inPartDomain (partOperand o) = true ↔ (0 ≤ v ∧ v < 2 ^ 30) := by
  rw [inPartDomain_iff, h, be_presentInteger_lt_iff v _ (by omega)]
  norm_cast

theorem inTsDomain_of_presented (o : Operands) (v : Int) (h : o.tsIn = presentInteger v) :
    inTsDomain (tsOperand o) = true ↔ (0 ≤ v ∧ v < 2 ^ 48) := by
  rw [inTsDomain_iff, h, be_presentInteger_lt_iff v _ (by omega)]
  norm_cast

/-! The pack commands outside the domains (41_field_packer.md R133, R135, R136). -/

theorem packWithTimestamp_out (o : Operands) (p : BitVec 30) (h : ¬inTsDomain (tsOperand o) = true) :
    packWithTimestamp o p = .fail .invalidTimestamp .range 0 := if_neg h

theorem packCmd_out (o : Operands) (h : ¬inPartDomain (partOperand o) = true) :
    packCmd o = .fail .invalidPartition .range 0 := if_neg h

theorem packCmd_in (o : Operands) (h : inPartDomain (partOperand o) = true) :
    packCmd o = packWithTimestamp o ((partOperand o).setWidth 30) := if_pos h

/-- A command whose outcome is a failure leaves the state `failed` with its triple (60_exceptions.md R205). -/
theorem next_complete_of_fail {s : State} {o : CmdOutcome} {k : ErrKind} {c : ErrCause} {p : Byte}
    (h : o = .fail k c p) :
    (.next (complete o s) : Host.Outcome State Fault Refusal) = .next (failed s (errCodeOf k) (errCauseOf c) p) := by
  rw [h, complete_fail]

/-- Settles O57: a presented pattern is below a domain's bound exactly when its integer is in the domain. -/
theorem presentedIntegersAreJudgedExactly : Obligations.PresentedIntegersAreJudgedExactly := by
  refine ⟨be_presentInteger_of_nonneg, be_presentInteger_of_neg, presentInteger_of_wide, inPartDomain_of_presented,
    inTsDomain_of_presented, fun s v hp hv => ?_, fun s v ht hv => ?_⟩
  · exact next_complete_of_fail (packCmd_out _ (mt (inPartDomain_of_presented _ v hp).mp hv))
  · have hout (p : BitVec 30) : packWithTimestamp s.operands p = .fail .invalidTimestamp .range 0 :=
      packWithTimestamp_out _ p (mt (inTsDomain_of_presented _ v ht).mp hv)
    refine ⟨next_complete_of_fail (hout _), fun hpart => ?_, fun htext => ?_⟩
    · exact next_complete_of_fail ((packCmd_in _ ((inPartDomain_iff _).mpr hpart)).trans (hout _))
    · exact next_complete_of_fail ((gated_of_textValid _ _ htext).trans (hout _))

/-! Presented lengths (40_host_interface.md R110, R111). -/

theorem presentsTextLength_eq_iff (len : Nat) (v : Byte) (h : presentsTextLength len v = true) :
    v.toNat = Config.txtChars ↔ len = 32 := by
  unfold presentsTextLength at h
  split at h
  · rw [beq_iff_eq.mp h]
    rfl
  · have hne : v.toNat ≠ Config.txtChars := mt (toNat_eq_txtChars v).mp (bne_iff_ne.mp h)
    simp only [hne, false_iff]
    omega

theorem presentsBinaryLength_eq_iff (len : Nat) (v : Byte) (h : presentsBinaryLength len v = true) :
    v.toNat = Config.binBytes ↔ len = 20 := by
  unfold presentsBinaryLength at h
  split at h
  · rw [beq_iff_eq.mp h]
    rfl
  · have hne : v.toNat ≠ Config.binBytes := mt (BitVec.toNat_inj (y := 20)).mp (bne_iff_ne.mp h)
    simp only [hne, false_iff]
    omega

theorem errcodeAfter_ok_ne_two (r : Bool) (w : Writes) : errcodeAfter (.ok r w) ≠ 2 := by
  simp [errcodeAfter]

theorem errcodeAfter_packWithTimestamp_ne_two (o : Operands) (p : BitVec 30) :
    errcodeAfter (packWithTimestamp o p) ≠ 2 := by
  unfold packWithTimestamp
  split <;> simp [errcodeAfter, errCodeOf]

theorem outcome_next_inj {s t : State} : (.next s : Host.Outcome State Fault Refusal) = .next t ↔ s = t :=
  Iff.of_eq (Host.Outcome.next.injEq s t)

/-- A command that checks the text first fails with LENGTH for every length but 32. -/
theorem next_gated_eq_length (len : Nat) (s : State) (hlen : presentsTextLength len s.operands.tlen = true)
    (cmd : CmdOutcome) (hcmd : errcodeAfter cmd ≠ 2) :
    (.next (complete (gated s.operands cmd) s) : Host.Outcome State Fault Refusal) = .next (failed s 2 1 0) ↔
      len ≠ 32 := by
  rw [outcome_next_inj, complete_gated_eq_length s cmd hcmd, textCheck_eq_length, Ne,
    presentsTextLength_eq_iff len _ hlen]

/-- ENCODE fails with LENGTH on the length check alone: its other failure has another cause (42_transcoder.md
R152). -/
theorem exec_encode_eq_length (s : State) :
    exec .encode s = .next (failed s 1 1 0) ↔ s.operands.blen.toNat ≠ Config.binBytes := by
  refine ⟨fun h hlen => ?_, fun hlen => next_complete_of_fail (if_pos hlen)⟩
  have hcause : errcauseAfter (encodeCmd s.operands) = 1 := congrArg State.errcause (outcome_next_inj.mp h)
  rw [encodeCmd, if_neg (not_not.mpr hlen)] at hcause
  split at hcause <;> cases hcause

theorem exec_validateText_eq (s : State) (r : Bool) :
    exec .validateText s = .next { completed s with result := r } ↔ (textCheck s.operands == .ok) = r :=
  outcome_next_inj.trans (completed_result_inj s _ r)

theorem exec_validateBinary_eq (s : State) (r : Bool) :
    exec .validateBinary s = .next { completed s with result := r } ↔
      (s.operands.blen.toNat == Config.binBytes) = r :=
  outcome_next_inj.trans (completed_result_inj s _ r)

/-- Settles O58: each command's length check is an equivalence with the presented length; a gate's other faults, and the
errors behind it, have other triples. -/
theorem presentedLengthsAreJudgedExactly : Obligations.PresentedLengthsAreJudgedExactly := by
  refine fun len s => ⟨fun htext => ?_, fun hbin => ?_⟩
  · have hlen := presentsTextLength_eq_iff len _ htext
    have hcheck : textCheck s.operands = .bad .length 0 ↔ len ≠ 32 := by rw [textCheck_eq_length, Ne, hlen]
    have htlen : s.operands.tlen = 32 ↔ len = 32 := (toNat_eq_txtChars _).symm.trans hlen
    refine ⟨hcheck, next_gated_eq_length len s htext _ (errcodeAfter_ok_ne_two _ _),
      next_gated_eq_length len s htext _ (errcodeAfter_ok_ne_two _ _),
      next_gated_eq_length len s htext _ (errcodeAfter_packWithTimestamp_ne_two _ _), fun hne => ?_, ?_⟩
    · exact (exec_validateText_eq s false).mpr (by rw [hcheck.mpr hne]; rfl)
    · have hvalid : TextValid s.operands ↔ _ := and_congr_left fun _ => htlen
      exact (exec_validateText_eq s true).trans (beq_iff_eq.trans ((textCheck_eq_ok _).trans hvalid))
  · have hlen := presentsBinaryLength_eq_iff len _ hbin
    refine ⟨?_, ?_, ?_⟩
    · rw [exec_encode_eq_length, Ne, hlen]
    · exact (exec_validateBinary_eq s true).trans (beq_iff_eq.trans hlen)
    · rw [exec_validateBinary_eq, beq_eq_false_iff_ne, Ne, hlen]

end Sys2Proof.Machine
end

section
/-! PROOFS. The text check's faults (44_validator.md R180) and the partition of a text, of four random bytes and of
PART_OUT as numbers (43_partition_extractor.md R171; 41_field_packer.md R132, R140; 10_state.md R41). -/

namespace Sys2Proof.Machine

/-! The text check on a candidate that fails it. -/

theorem firstBadPosition_eq_some (t : Bytes 32) (k : Fin 32) (hk : k ≠ 0) (hbad : sym t[k] = none)
    (hmin : ∀ j : Fin 32, j < k → sym t[j] ≠ none) : firstBadPosition t = some k := by
  obtain ⟨i, rfl⟩ := Fin.exists_succ_eq.mpr hk
  refine List.find?_eq_some_iff_getElem.mpr ⟨Option.isNone_iff_eq_none.mpr hbad, i, by simp, by simp, fun j hj => ?_⟩
  have hji : (⟨j, hj.trans i.isLt⟩ : Fin 31).succ < i.succ := Fin.succ_lt_succ_iff.mpr hj
  have hsym : sym t[(⟨j, hj.trans i.isLt⟩ : Fin 31).succ] ≠ none := hmin _ hji
  simpa [Option.isSome_iff_ne_none] using hsym

theorem textCheck_of_alphabet (o : Operands) (k : Fin 32) (hlen : o.tlen.toNat = Config.txtChars)
    (hfirst : firstCharOk o.txtIn[0] = true) (hk : firstBadPosition o.txtIn = some k) :
    textCheck o = .bad .alphabet (BitVec.ofNat 8 k.val) := by
  simp [textCheck, hlen, hfirst, hk]

/-- The check reports the fault the candidate has. An alphabet fault is never at position 0, where the digits `0`–`7`
have a symbol. -/
theorem textCheck_of_textFaultAt (o : Operands) (cause pos : Byte) (h : TextFaultAt o cause pos) :
    ∃ c, errCauseOf c = cause ∧ textCheck o = .bad c pos := by
  rcases h with ⟨hlen, rfl, rfl⟩ | ⟨hlen, hfirst, rfl, rfl⟩ | ⟨hlen, hfirst, k, hbad, hmin, rfl, rfl⟩
  · exact ⟨.length, rfl, textCheck_of_length o (mt (toNat_eq_txtChars _).mp hlen)⟩
  · exact ⟨.firstChar, rfl, textCheck_of_firstChar o ((toNat_eq_txtChars _).mpr hlen) (decide_eq_false hfirst)⟩
  · have hfirst' : firstCharOk o.txtIn[0] = true := decide_eq_true hfirst
    have hk : k ≠ 0 := by
      rintro rfl
      have hany := sym_of_firstCharOk o.txtIn[0] hfirst'
      have hnone : sym o.txtIn[0] = none := hbad
      rw [hnone] at hany
      cases hany
    exact ⟨.alphabet, rfl, textCheck_of_alphabet o k ((toNat_eq_txtChars _).mpr hlen) hfirst'
      (firstBadPosition_eq_some _ k hk hbad hmin)⟩

/-- A gated command reports the text fault, whatever stands behind the gate (44_validator.md R184). -/
theorem next_complete_gated_of_textFaultAt (s : State) (cmd : CmdOutcome) (cause pos : Byte)
    (h : TextFaultAt s.operands cause pos) :
    (.next (complete (gated s.operands cmd) s) : Host.Outcome State Fault Refusal) = .next (failed s 2 cause pos) := by
  obtain ⟨c, rfl, hcheck⟩ := textCheck_of_textFaultAt _ _ _ h
  have hgate : gated s.operands cmd = .fail .invalidTextInput c pos := by rw [gated, hcheck]
  exact next_complete_of_fail hgate

/-! Partitions as numbers. -/

theorem symbolValue_eq_toNat_symbolAt (t : Bytes 32) (k : Fin 32) : symbolValue t[k] = (symbolAt t k).toNat := by
  unfold symbolValue symbolAt
  cases sym t[k] <;> rfl

/-- The concatenation of the six symbols is R171's sum of their weighted values. -/
theorem toNat_partitionOfText (t : Bytes 32) : (partitionOfText t).toNat = textPartition t := by
  have hsum : textPartition t =
      symbolValue t[(10 : Fin 32)] * 2 ^ 25 + symbolValue t[(11 : Fin 32)] * 2 ^ 20
        + symbolValue t[(12 : Fin 32)] * 2 ^ 15 + symbolValue t[(13 : Fin 32)] * 2 ^ 10
        + symbolValue t[(14 : Fin 32)] * 2 ^ 5 + symbolValue t[(15 : Fin 32)] * 2 ^ 0 :=
    Fin.sum_univ_six _
  rw [hsum]
  simp only [partitionOfText, toNat_append_eq_add, symbolValue_eq_toNat_symbolAt]
  ring

theorem be_partitionBytes (p : BitVec 30) : be (partitionBytes p).toList = p.toNat := by
  rw [partitionBytes, be_bytesBe, Nat.mod_eq_of_lt (by omega)]

/-- R132's mask keeps the low 30 bits. -/
theorem toNat_maskPart (b : Bytes 4) : (maskPart b).toNat = be b.toList % 2 ^ 30 := by
  have hb : be b.toList < 2 ^ 32 := be_toList_lt b
  have hmask : (0x3FFFFFFF#32).toNat = 2 ^ 30 - 1 := rfl
  rw [maskPart, BitVec.toNat_setWidth, BitVec.toNat_and, BitVec.toNat_ofNat, Nat.mod_eq_of_lt hb, hmask,
    Nat.and_two_pow_sub_one_eq_mod, Nat.mod_mod]

theorem maskPart_eq_iff (b : Bytes 4) (p : BitVec 30) : maskPart b = p ↔ be b.toList % 2 ^ 30 = p.toNat := by
  rw [← BitVec.toNat_inj, toNat_maskPart]

/-- The four bytes of `j·2^30 + p` hold that number whole. -/
theorem be_maskPreimage (p : BitVec 30) (j : Fin 4) :
    be (bytesBe 4 (j.val * 2 ^ 30 + p.toNat)).toList = j.val * 2 ^ 30 + p.toNat := by
  rw [be_bytesBe, Nat.mod_eq_of_lt (by omega)]

/-- Settles O56: the preimage's `j` is the quotient of its number by 2^30, the two bits the mask drops. -/
theorem maskHasFourPreimages : Obligations.MaskHasFourPreimages := by
  refine fun p => ⟨fun b => ?_, fun j j' h => ?_⟩
  · rw [maskPart_eq_iff]
    constructor
    · intro hb
      have hlt := be_toList_lt b
      refine ⟨⟨be b.toList / 2 ^ 30, by omega⟩, ?_⟩
      rw [← hb, Nat.div_add_mod', bytesBe_be]
    · rintro ⟨j, rfl⟩
      rw [be_maskPreimage]
      omega
  · have hbe := congrArg (fun b : Bytes 4 => be b.toList) h
    simp only [be_maskPreimage] at hbe
    omega

end Sys2Proof.Machine
end

section
/-! PROOFS. The field packer commands (41_field_packer.md R133 to R137), those that read TS_IN from the end they
share, and which packed binaries ENCODE accepts (R139). -/

namespace Sys2Proof.Machine

/-! Operands inside their domains keep their number in the packed field (41_field_packer.md R131). -/

theorem toNat_partField (o : Operands) (h : be o.partIn.toList < 2 ^ 30) :
    ((partOperand o).setWidth 30).toNat = be o.partIn.toList := by
  rw [BitVec.toNat_setWidth, partOperand, toNat_ofNat_be, Nat.mod_eq_of_lt h]

theorem toNat_tsField (o : Operands) (h : be o.tsIn.toList < 2 ^ 48) :
    ((tsOperand o).setWidth 48).toNat = be o.tsIn.toList := by
  rw [BitVec.toNat_setWidth, tsOperand, toNat_ofNat_be, Nat.mod_eq_of_lt h]

/-! A completion by what its outcome is. -/

theorem next_complete_congr {s : State} {o o' : CmdOutcome} (h : o = o') :
    (.next (complete o s) : Host.Outcome State Fault Refusal) = .next (complete o' s) := by
  rw [h]

theorem next_complete_of_ok {s : State} {o : CmdOutcome} {w : Writes} (h : o = .ok true w) :
    (.next (complete o s) : Host.Outcome State Fault Refusal) = .next (completed (applyWrites s w)) := by
  rw [h, complete_ok]

/-! The end that PACK, PACK_ROOT and PACK_RELATED share. -/

theorem packWithTimestamp_in (o : Operands) (p : BitVec 30) (h : be o.tsIn.toList < 2 ^ 48) :
    packWithTimestamp o p = .ok true (.binOut (pack p ((tsOperand o).setWidth 48) o.randIn)) :=
  if_pos ((inTsDomain_iff o).mpr h)

theorem next_packWithTimestamp_in (s : State) (p : BitVec 30) (h : be s.operands.tsIn.toList < 2 ^ 48) :
    ∃ b : Bytes 20, (.next (complete (packWithTimestamp s.operands p) s) : Host.Outcome State Fault Refusal) =
        .next { completed s with binOut := b } ∧
      be b.toList = be s.operands.tsIn.toList * 2 ^ 112 + p.toNat * 2 ^ 80 + be s.operands.randIn.toList := by
  refine ⟨pack p ((tsOperand s.operands).setWidth 48) s.operands.randIn,
    next_complete_of_ok (packWithTimestamp_in _ p h), ?_⟩
  rw [be_pack, toNat_tsField _ h]

theorem next_packWithTimestamp_out (s : State) (p : BitVec 30) (h : 2 ^ 48 ≤ be s.operands.tsIn.toList) :
    (.next (complete (packWithTimestamp s.operands p) s) : Host.Outcome State Fault Refusal) =
      .next (failed s 4 5 0) :=
  next_complete_of_fail (packWithTimestamp_out _ p (mt (inTsDomain_iff _).mp (Nat.not_lt.mpr h)))

/-! The commands. -/

theorem exec_pack_in (s : State) (h : be s.operands.partIn.toList < 2 ^ 30) :
    exec .pack s = .next (complete (packWithTimestamp s.operands ((partOperand s.operands).setWidth 30)) s) :=
  next_complete_congr (packCmd_in _ ((inPartDomain_iff _).mpr h))

theorem exec_packRelated_of_textValid (s : State) (h : TextValid s.operands) :
    exec .packRelated s = .next (complete (packWithTimestamp s.operands (partitionOfText s.operands.txtIn)) s) :=
  next_complete_congr (gated_of_textValid _ _ h)

/-- Settles O38: the partition's domain check comes first, then the shared end. -/
theorem packCommand : Obligations.PackCommand := by
  refine fun s => ⟨fun hp ht => ?_, fun hp => ?_, fun hp ht => ?_⟩
  · rw [exec_pack_in s hp, ← toNat_partField _ hp]
    exact next_packWithTimestamp_in s _ ht
  · exact next_complete_of_fail (packCmd_out _ (mt (inPartDomain_iff _).mp (Nat.not_lt.mpr hp)))
  · rw [exec_pack_in s hp]
    exact next_packWithTimestamp_out s _ ht

/-- Settles O39: the packed number of the two named constants. -/
theorem packExampleCommand : Obligations.PackExampleCommand :=
  fun s => ⟨_, rfl, be_pack Config.examplePartition Config.exampleTimestamp s.operands.randIn⟩

/-- Settles O40: the shared end, with the masked partition. -/
theorem packRootCommand : Obligations.PackRootCommand := by
  refine fun s => ⟨fun ht => ?_, next_packWithTimestamp_out s _⟩
  rw [← toNat_maskPart]
  exact next_packWithTimestamp_in s _ ht

/-- Settles O41: the text check is the gate before the shared end. -/
theorem packRelatedCommand : Obligations.PackRelatedCommand := by
  refine fun s => ⟨fun hv ht => ?_, fun hv ht => ?_, next_complete_gated_of_textFaultAt s _⟩
  · rw [exec_packRelated_of_textValid s hv, ← toNat_partitionOfText]
    exact next_packWithTimestamp_in s _ ht
  · rw [exec_packRelated_of_textValid s hv]
    exact next_packWithTimestamp_out s _ ht

/-- Settles O42: PART_OUT holds the masked partition's number. -/
theorem randomPartitionCommand : Obligations.RandomPartitionCommand :=
  fun s => ⟨_, rfl, (be_partitionBytes _).trans (toNat_maskPart s.operands.rpartIn)⟩

/-! What a pack command's success writes has its timestamp in the top 48 bits. -/

/-- The outcome is a failure, or writes a packed binary with timestamp `t` to BIN_OUT. -/
def CmdOutcome.PacksTimestamp (o : CmdOutcome) (t : Nat) : Prop :=
  errAfter o = true ∨ ∃ p r, ∃ ts : BitVec 48, o = .ok true (.binOut (pack p ts r)) ∧ ts.toNat = t

theorem packWithTimestamp_packsTimestamp (o : Operands) (p : BitVec 30) :
    (packWithTimestamp o p).PacksTimestamp (be o.tsIn.toList) := by
  by_cases h : be o.tsIn.toList < 2 ^ 48
  · exact .inr ⟨p, o.randIn, _, packWithTimestamp_in o p h, toNat_tsField o h⟩
  · exact .inl (by rw [packWithTimestamp_out o p (mt (inTsDomain_iff o).mp h)]; rfl)

theorem packCmd_packsTimestamp (o : Operands) : (packCmd o).PacksTimestamp (be o.tsIn.toList) := by
  by_cases h : inPartDomain (partOperand o) = true
  · rw [packCmd_in o h]
    exact packWithTimestamp_packsTimestamp o _
  · exact .inl (by rw [packCmd_out o h]; rfl)

theorem packRelatedCmd_packsTimestamp (o : Operands) : (packRelatedCmd o).PacksTimestamp (be o.tsIn.toList) := by
  rcases gated_cases o (packWithTimestamp o (partitionOfText o.txtIn)) with ⟨_, h⟩ | ⟨_, _, _, h⟩ <;>
    rw [packRelatedCmd, h]
  · exact packWithTimestamp_packsTimestamp o _
  · exact .inl rfl

theorem exec_packsTimestamp (i : Instr) (s : State) (hi : i ∈ [Instr.pack, .packExample, .packRoot, .packRelated]) :
    ∃ o : CmdOutcome, exec i s = .next (complete o s) ∧
      o.PacksTimestamp (if i = .packExample then 1234567890000 else be s.operands.tsIn.toList) := by
  simp only [List.mem_cons, List.not_mem_nil, or_false] at hi
  rcases hi with rfl | rfl | rfl | rfl
  · exact ⟨_, rfl, packCmd_packsTimestamp s.operands⟩
  · exact ⟨_, rfl, .inr ⟨_, _, _, rfl, rfl⟩⟩
  · exact ⟨_, rfl, packWithTimestamp_packsTimestamp s.operands _⟩
  · exact ⟨_, rfl, packRelatedCmd_packsTimestamp s.operands⟩

/-- The binary a successful pack command leaves in BIN_OUT. -/
theorem packed_binOut (i : Instr) (s t : State) (hi : i ∈ [Instr.pack, .packExample, .packRoot, .packRelated])
    (h : exec i s = .next t) (herr : t.err = false) :
    ∃ p r, ∃ ts : BitVec 48, t.binOut = pack p ts r ∧
      ts.toNat = if i = .packExample then 1234567890000 else be s.operands.tsIn.toList := by
  obtain ⟨o, ho, hpacks⟩ := exec_packsTimestamp i s hi
  obtain rfl := outcome_next_inj.mp (ho.symm.trans h)
  rcases hpacks with hfail | ⟨p, r, ts, rfl, hts⟩
  · cases hfail.symm.trans herr
  · exact ⟨p, r, ts, rfl, hts⟩

/-! ENCODE's PREFIX check (42_transcoder.md R152). -/

theorem exec_encode_ok (s : State) (hlen : s.operands.blen = 20) (h : readBits s.operands.binIn 0 5 ≤ 7) :
    exec .encode s = .next { completed s with txtOut := encodeText s.operands.binIn } := by
  have hcmd : encodeCmd s.operands = .ok true (.txtOut (encodeText s.operands.binIn)) := by
    simp [encodeCmd, hlen, Config.binBytes, Config.symBits, Config.firstCharMax, h]
  exact next_complete_of_ok hcmd

theorem exec_encode_prefix (s : State) (hlen : s.operands.blen = 20) (h : ¬readBits s.operands.binIn 0 5 ≤ 7) :
    exec .encode s = .next (failed s 1 4 0) := by
  refine next_complete_of_fail (k := .invalidBinaryInput) (c := .prefixRange) ?_
  simp [encodeCmd, hlen, Config.binBytes, Config.symBits, Config.firstCharMax, h]

/-- Settles O55: by R77 the packed binary's first symbol is at most 7 exactly when its timestamp is below 2^46. -/
theorem encodableTimestamps : Obligations.EncodableTimestamps := by
  intro i s t hi h herr s' hlen hbin
  obtain ⟨p, r, ts, hpack, hts⟩ := packed_binOut i s t hi h herr
  have hprefix : readBits s'.operands.binIn 0 5 ≤ 7 ↔ ts.toNat < 2 ^ 46 := by
    obtain ⟨_, hpacked⟩ := firstCharacterRuleEquivalents
    rw [hbin, hpack]
    exact hpacked p ts r
  rw [← hts]
  refine ⟨fun hlow => ⟨_, exec_encode_ok s' hlen (hprefix.mpr hlow), rfl⟩, fun hhigh => ?_⟩
  exact exec_encode_prefix s' hlen (mt hprefix.mp (Nat.not_lt.mpr hhigh))

end Sys2Proof.Machine
end

section
/-! PROOFS. Writing through the bit cursor (42_transcoder.md R150), and a 160-bit value by its 32 symbols (R151). -/

namespace Sys2Proof.Machine

/-! Reads, bit by bit and one after the other. -/

/-- The first bit read is the most significant of the result. -/
theorem testBit_readBits {n : Nat} (b : Bytes n) (o len i : Nat) (h : o + len ≤ 8 * n) (hi : i < len) :
    (readBits b o len).testBit i = getBit b (o + (len - 1 - i)) := by
  have hplace : 8 * n - 1 - (o + (len - 1 - i)) = i + (8 * n - o - len) := by omega
  rw [readBits_eq_slice b o len h, getBit_eq_testBit_be b _ (by omega), hplace, Nat.testBit_mod_two_pow,
    Nat.testBit_div_two_pow, decide_eq_true hi, Bool.true_and]

/-- A number of `len` bits is what the cursor reads when its bits are the cursor's. -/
theorem readBits_eq_of_getBit {n : Nat} (b : Bytes n) (o len v : Nat) (h : o + len ≤ 8 * n) (hv : v < 2 ^ len)
    (hbits : ∀ i < len, getBit b (o + (len - 1 - i)) = v.testBit i) : readBits b o len = v := by
  refine Nat.eq_of_testBit_eq fun i => ?_
  by_cases hi : i < len
  · rw [testBit_readBits b o len i h hi, hbits i hi]
  · have hpow : 2 ^ len ≤ 2 ^ i := Nat.pow_le_pow_right (by omega) (by omega)
    rw [Nat.testBit_lt_two_pow ((readBits_lt b o len h).trans_le hpow), Nat.testBit_lt_two_pow (hv.trans_le hpow)]

theorem readBits_add {n : Nat} (b : Bytes n) (o len len' : Nat) :
    readBits b o (len + len') = readBits b o len * 2 ^ len' + readBits b (o + len) len' := by
  induction len' with
  | zero => simp
  | succ len' ih =>
    rw [← Nat.add_assoc, readBits_succ, readBits_succ, ih, Nat.add_assoc o, pow_succ]
    ring

theorem readBits_all {n : Nat} (b : Bytes n) : readBits b 0 (8 * n) = be b.toList := by
  rw [readBits_eq_slice b 0 (8 * n) (by omega), Nat.sub_zero, Nat.sub_self, pow_zero, Nat.div_one,
    Nat.mod_eq_of_lt (be_toList_lt b)]

/-! Writes. -/

@[simp] theorem writeBits_zero {n : Nat} (b : Bytes n) (o v : Nat) : writeBits b o 0 v = b := rfl

/-- A write of one bit more is the write of the value without its lowest bit, and then that bit. -/
theorem writeBits_succ {n : Nat} (b : Bytes n) (o len v : Nat) :
    writeBits b o (len + 1) v = setBit (writeBits b o len (v / 2)) (o + len) (v.testBit 0) := by
  have hbit (i : Nat) (hi : i ∈ List.range len) : v.testBit (len - i) = (v / 2).testBit (len - 1 - i) := by
    have hpos : len - i = len - 1 - i + 1 := by have := List.mem_range.mp hi; omega
    rw [hpos, Nat.testBit_succ]
  simp only [writeBits, List.range_succ, List.foldl_append, List.foldl_cons, List.foldl_nil, Nat.add_sub_cancel,
    Nat.sub_self]
  congr 1
  exact List.foldl_ext _ _ _ fun acc i hi => by rw [hbit i hi]

/-- Every bit after a write: inside the field the value's, outside it the old one. -/
theorem getBit_writeBits {n : Nat} (b : Bytes n) (o len v o' : Nat) (h : o + len ≤ 8 * n) :
    getBit (writeBits b o len v) o' =
      if o ≤ o' ∧ o' < o + len then v.testBit (o + len - 1 - o') else getBit b o' := by
  induction len generalizing v with
  | zero => rw [writeBits_zero, if_neg (by omega)]
  | succ len ih =>
    rw [writeBits_succ, getBit_setBit _ _ _ _ (by omega), ih (v / 2) (by omega)]
    by_cases hlast : o' = o + len
    · rw [if_pos hlast, if_pos (by omega)]
      congr 1
      omega
    · rw [if_neg hlast]
      by_cases hin : o ≤ o' ∧ o' < o + len
      · have hpos : o + (len + 1) - 1 - o' = o + len - 1 - o' + 1 := by omega
        rw [if_pos hin, if_pos (by omega), hpos, Nat.testBit_succ]
      · rw [if_neg hin, if_neg (by omega)]

theorem getBit_writeBits_outside {n : Nat} (b : Bytes n) (o len v o' : Nat) (h : o + len ≤ 8 * n)
    (ho : o' < o ∨ o + len ≤ o') : getBit (writeBits b o len v) o' = getBit b o' := by
  rw [getBit_writeBits b o len v o' h, if_neg (by omega)]

theorem readBits_writeBits_same {n : Nat} (b : Bytes n) (o len v : Nat) (h : o + len ≤ 8 * n) (hv : v < 2 ^ len) :
    readBits (writeBits b o len v) o len = v := by
  refine readBits_eq_of_getBit _ o len v h hv fun i hi => ?_
  rw [getBit_writeBits b o len v _ h, if_pos (by omega)]
  congr 1
  omega

theorem readBits_writeBits_disjoint {n : Nat} (b : Bytes n) (o len v o' len' : Nat) (h : o + len ≤ 8 * n)
    (h' : o' + len' ≤ 8 * n) (hdisjoint : o' + len' ≤ o ∨ o + len ≤ o') :
    readBits (writeBits b o len v) o' len' = readBits b o' len' := by
  refine readBits_eq_of_getBit _ o' len' _ h' (readBits_lt b o' len' h') fun i hi => ?_
  rw [getBit_writeBits_outside b o len v _ h (by omega), testBit_readBits b o' len' i h' hi]

/-- Settles O9: the cursor's slice of the number, for a symbol of 20 bytes. -/
theorem symbolReadIsValueSlice : Obligations.SymbolReadIsValueSlice := by
  intro b k hk
  have hexp : 8 * 20 - 5 * k - 5 = 155 - 5 * k := by omega
  have hslice := readBits_eq_slice b (5 * k) 5 (by omega)
  rw [hexp] at hslice
  exact hslice

/-- Settles O10: the field's bits are the value's, every other bit is the old one. -/
theorem bitCursorReadAfterWrite : Obligations.BitCursorReadAfterWrite :=
  fun _ b o len v h hv =>
    ⟨readBits_writeBits_same b o len v h hv, fun o' ho => getBit_writeBits_outside b o len v o' h ho⟩

/-! A binary by its symbols. -/

/-- The first `m` symbols are the digits in base 32 of the first `5m` bits. -/
theorem readBits_eq_sum_symbols {n : Nat} (b : Bytes n) (m : Nat) :
    readBits b 0 (5 * m) = ∑ k : Fin m, readBits b (5 * k.val) 5 * 2 ^ (5 * (m - 1 - k.val)) := by
  induction m with
  | zero => simp
  | succ m ih =>
    have hweight (k : Fin m) : 2 ^ (5 * (m - k.val)) = 2 ^ (5 * (m - 1 - k.val)) * 2 ^ 5 := by
      rw [← pow_add]
      congr 1
      omega
    rw [Nat.mul_succ, readBits_add, ih, Fin.sum_univ_castSucc, Finset.sum_mul]
    simp only [Fin.val_castSucc, Fin.val_last, Nat.add_sub_cancel, Nat.sub_self, hweight, Nat.mul_assoc, Nat.zero_add,
      Nat.mul_zero, pow_zero, Nat.mul_one]

theorem be_eq_sum_symbols (b : Bytes 20) :
    be b.toList = ∑ k : Fin 32, readBits b (5 * k.val) 5 * 2 ^ (5 * (31 - k.val)) :=
  (readBits_all b).symm.trans (readBits_eq_sum_symbols b 32)

theorem binary_ext_symbols (b b' : Bytes 20)
    (h : ∀ k : Fin 32, readBits b (5 * k.val) 5 = readBits b' (5 * k.val) 5) : b = b' := by
  have hbe : be b.toList = be b'.toList := by simp only [be_eq_sum_symbols, h]
  rw [← bytesBe_be b, hbe, bytesBe_be]

end Sys2Proof.Machine
end

section
/-! PROOFS. ENCODE, DECODE and ZERO (42_transcoder.md R152 to R154): the pure transforms undo each other symbol by symbol,
and each law of the codec (R155 to R157) is a law of the transforms behind the commands' checks. -/

namespace Sys2Proof.Machine

/-! The symbols of a decoded text (R151). -/

/-- Symbols written one after the other: each position written holds its symbol, any other its old one. -/
theorem readBits_foldl_writeBits (f : Fin 32 → Symbol) (ks : List (Fin 32)) (b : Bytes 20) (k : Fin 32) :
    readBits (ks.foldl (fun b k => writeBits b (5 * k.val) 5 (f k).toNat) b) (5 * k.val) 5 =
      if k ∈ ks then (f k).toNat else readBits b (5 * k.val) 5 := by
  induction ks generalizing b with
  | nil => simp
  | cons j ks ih =>
    rw [List.foldl_cons, ih]
    by_cases hks : k ∈ ks
    · rw [if_pos hks, if_pos (List.mem_cons_of_mem j hks)]
    · rw [if_neg hks]
      by_cases hj : k = j
      · subst hj
        rw [if_pos List.mem_cons_self, readBits_writeBits_same b _ 5 _ (by omega) (f k).isLt]
      · have hval : k.val ≠ j.val := Fin.val_ne_of_ne hj
        have hcons : k ∉ j :: ks := List.not_mem_cons_of_ne_of_not_mem hj hks
        rw [if_neg hcons, readBits_writeBits_disjoint b _ 5 _ _ 5 (by omega) (by omega) (by omega)]

theorem readBits_decodeBin (t : Bytes 32) (k : Fin 32) :
    readBits (decodeBin t) (5 * k.val) 5 = (symbolAt t k).toNat := by
  rw [decodeBin, readBits_foldl_writeBits, if_pos (List.mem_finRange k)]

/-- R151's value of a decoded text. -/
theorem be_decodeBin (t : Bytes 32) : be (decodeBin t).toList = textValue t := by
  simp only [be_eq_sum_symbols, readBits_decodeBin, textValue, symbolValue_eq_toNat_symbolAt]

/-! The transforms undo each other. -/

theorem encodeText_getElem_fin (b : Bytes 20) (k : Fin 32) :
    (encodeText b)[k] = chr (BitVec.ofNat 5 (readBits b (5 * k.val) 5)) := encodeText_getElem b k.val k.isLt

theorem symbolAt_encodeText (b : Bytes 20) (k : Fin 32) :
    symbolAt (encodeText b) k = BitVec.ofNat 5 (readBits b (5 * k.val) 5) := by
  rw [symbolAt, encodeText_getElem_fin, sym_chr, Option.getD_some]

theorem decodeBin_encodeText (b : Bytes 20) : decodeBin (encodeText b) = b := by
  refine binary_ext_symbols _ _ fun k => ?_
  rw [readBits_decodeBin, symbolAt_encodeText, BitVec.toNat_ofNat,
    Nat.mod_eq_of_lt (readBits_lt b (5 * k.val) 5 (by omega))]

/-- The text comes back folded to lowercase, where each character has a symbol. -/
theorem encodeText_decodeBin (t : Bytes 32) (k : Fin 32) (h : sym t[k] = some (symbolAt t k)) :
    (encodeText (decodeBin t))[k] = lower t[k] := by
  obtain ⟨_, hfold, _⟩ := inverseTableFoldsCase
  rw [encodeText_getElem_fin, readBits_decodeBin, BitVec.ofNat_toNat, BitVec.setWidth_eq]
  exact hfold t[k] (symbolAt t k) h

/-! The first byte and the first character (30_encoding.md R77). -/

theorem firstSymbol_le_seven_iff_firstByte (b : Bytes 20) : readBits b 0 5 ≤ 7 ↔ b[0].toNat < 0x40 := by
  obtain ⟨hbinary, _⟩ := firstCharacterRuleEquivalents
  obtain ⟨_, _, hbyte⟩ := hbinary b
  exact hbyte

theorem firstChar_encodeText_iff (b : Bytes 20) :
    (0x30 ≤ (encodeText b)[0].toNat ∧ (encodeText b)[0].toNat ≤ 0x37) ↔ readBits b 0 5 ≤ 7 :=
  decide_eq_decide.mp (firstCharOk_encodeText b)

theorem firstSymbol_decodeBin_le_seven (o : Operands) (h : TextValid o) : readBits (decodeBin o.txtIn) 0 5 ≤ 7 := by
  have hfirst : firstCharOk o.txtIn[0] = true := by
    obtain ⟨_, hfirst, _⟩ := h
    exact decide_eq_true hfirst
  have hsym : sym o.txtIn[0] = some (symbolAt o.txtIn 0) := textCheck_ok_sym o ((textCheck_eq_ok o).mpr h) 0
  have hread : readBits (decodeBin o.txtIn) 0 5 = (symbolAt o.txtIn 0).toNat := readBits_decodeBin o.txtIn 0
  simpa [hsym, hread] using sym_of_firstCharOk _ hfirst

theorem firstByte_decodeBin_lt (o : Operands) (h : TextValid o) : (decodeBin o.txtIn)[0].toNat < 0x40 :=
  (firstSymbol_le_seven_iff_firstByte _).mp (firstSymbol_decodeBin_le_seven o h)

/-- A text that ENCODE may write passes the text check. -/
theorem textValid_of_encodeText (o : Operands) (b : Bytes 20) (hlen : o.tlen = 32) (htext : o.txtIn = encodeText b)
    (h : readBits b 0 5 ≤ 7) : TextValid o := by
  refine ⟨hlen, ?_, fun k => ?_⟩ <;> rw [htext]
  · exact (firstChar_encodeText_iff b).mpr h
  · rw [encodeText_getElem_fin, sym_chr]
    exact Option.some_ne_none _

/-! The commands. -/

theorem exec_encode_length (s : State) (h : s.operands.blen ≠ 20) : exec .encode s = .next (failed s 1 1 0) :=
  (exec_encode_eq_length s).mpr (mt (BitVec.toNat_inj (y := 20)).mp h)

theorem exec_encode_firstByte_high (s : State) (hlen : s.operands.blen = 20)
    (h : 0x40 ≤ s.operands.binIn[0].toNat) : exec .encode s = .next (failed s 1 4 0) :=
  exec_encode_prefix s hlen (mt (firstSymbol_le_seven_iff_firstByte _).mp (Nat.not_lt.mpr h))

theorem exec_decode_ok (s : State) (h : TextValid s.operands) :
    exec .decode s = .next { completed s with binOut := decodeBin s.operands.txtIn } :=
  next_complete_of_ok (gated_of_textValid _ _ h)

/-- DECODE succeeds on TextIds alone. -/
theorem textValid_of_exec_decode (s t : State) (h : exec .decode s = .next t) (herr : t.err = false) :
    TextValid s.operands := by
  obtain rfl : complete (decodeCmd s.operands) s = t := outcome_next_inj.mp h
  rcases gated_cases s.operands (.ok true (.binOut (decodeBin s.operands.txtIn))) with ⟨hcheck, _⟩ | ⟨c, p, _, hfail⟩
  · exact (textCheck_eq_ok _).mp hcheck
  · rw [decodeCmd, hfail] at herr
    cases herr

theorem encodeText_zero : encodeText (Vector.replicate 20 0) = zeroText := by
  have hbe : be (Vector.replicate 20 (0 : Byte)).toList = 0 := rfl
  ext k hk : 1
  rw [encodeText_getElem _ k hk, readBits_eq_slice _ _ _ (by omega), hbe, Nat.zero_div, Nat.zero_mod, zeroText,
    Vector.getElem_replicate]
  rfl

/-- What a successful ENCODE or ZERO leaves in TXT_OUT is the encoding of a binary that passes the PREFIX check. -/
theorem txtOut_of_exec_encode_or_zero (i : Instr) (s t : State) (hi : i = .encode ∨ i = .zero)
    (h : exec i s = .next t) (herr : t.err = false) :
    ∃ b : Bytes 20, t.txtOut = encodeText b ∧ readBits b 0 5 ≤ 7 := by
  rcases hi with rfl | rfl
  · by_cases hlen : s.operands.blen = 20
    · by_cases hfirst : readBits s.operands.binIn 0 5 ≤ 7
      · obtain rfl := outcome_next_inj.mp ((exec_encode_ok s hlen hfirst).symm.trans h)
        exact ⟨s.operands.binIn, rfl, hfirst⟩
      · obtain rfl := outcome_next_inj.mp ((exec_encode_prefix s hlen hfirst).symm.trans h)
        cases herr
    · obtain rfl := outcome_next_inj.mp ((exec_encode_length s hlen).symm.trans h)
      cases herr
  · obtain rfl : complete zeroCmd s = t := outcome_next_inj.mp h
    exact ⟨Vector.replicate 20 0, encodeText_zero.symm, by decide⟩

/-- Settles O43: the produced text, symbol by symbol, behind the two checks. -/
theorem encodeCommand : Obligations.EncodeCommand := by
  refine fun s => ⟨fun hlen hbyte => ?_, exec_encode_length s, exec_encode_firstByte_high s⟩
  refine ⟨_, exec_encode_ok s hlen ((firstSymbol_le_seven_iff_firstByte _).mpr hbyte), fun k => ?_⟩
  rw [encodeText_getElem_fin, symbolReadIsValueSlice _ k.val k.isLt]
  congr 1
  exact BitVec.eq_of_toNat_eq (by rw [BitVec.toNat_ofNat, BitVec.toNat_ofNat, Nat.mod_mod])

/-- Settles O44: the text check is the gate before the decoded value. -/
theorem decodeCommand : Obligations.DecodeCommand :=
  fun s => ⟨fun h => ⟨_, exec_decode_ok s h, be_decodeBin _⟩, next_complete_gated_of_textFaultAt s _⟩

/-- Settles O45: ZERO's outcome is the constant, and all 32 symbols of the number 0 are 0. -/
theorem zeroCommand : Obligations.ZeroCommand := ⟨fun _ => rfl, encodeText_zero⟩

/-! The laws of the codec. -/

/-- Settles O52: ENCODE and ZERO write encodings that passed the PREFIX check, DECODE writes decoded TextIds. -/
theorem writtenResultsAreWellFormed : Obligations.WrittenResultsAreWellFormed := by
  refine ⟨fun i s t hi h herr => ?_, fun s t h herr => ?_⟩
  · obtain ⟨b, htext, hfirst⟩ := txtOut_of_exec_encode_or_zero i s t hi h herr
    rw [htext]
    exact ⟨(firstChar_encodeText_iff b).mpr hfirst, fun k => ⟨_, encodeText_getElem_fin b k⟩⟩
  · have hvalid := textValid_of_exec_decode s t h herr
    obtain rfl := outcome_next_inj.mp ((exec_decode_ok s hvalid).symm.trans h)
    exact firstByte_decodeBin_lt _ hvalid

/-- Settles O50: ENCODE's text passes DECODE's check, and decoding undoes encoding. -/
theorem binaryRoundTrip : Obligations.BinaryRoundTrip := by
  refine ⟨fun s hlen hbyte => ?_, exec_encode_firstByte_high, fun p t r => ?_⟩
  · have hfirst := (firstSymbol_le_seven_iff_firstByte _).mpr hbyte
    refine ⟨_, exec_encode_ok s hlen hfirst, rfl, fun s' htlen htext => ?_⟩
    refine ⟨_, exec_decode_ok s' (textValid_of_encodeText _ _ htlen htext hfirst), rfl, ?_⟩
    rw [htext]
    exact decodeBin_encodeText _
  · obtain ⟨_, hpacked⟩ := firstCharacterRuleEquivalents
    have hbyte : (pack p t r)[0].toNat < 0x40 ↔ t.toNat < 2 ^ 46 :=
      (firstSymbol_le_seven_iff_firstByte _).symm.trans (hpacked p t r)
    exact ⟨hbyte.mpr, fun ht => Nat.not_lt.mp (mt hbyte.mp (Nat.not_lt.mpr ht))⟩

/-- Settles O51: DECODE's binary passes ENCODE's check, and encoding undoes decoding up to case. -/
theorem textRoundTrip : Obligations.TextRoundTrip := by
  intro s hvalid
  refine ⟨_, exec_decode_ok s hvalid, rfl, firstByte_decodeBin_lt _ hvalid, fun s' hblen hbin => ?_⟩
  have hfirst : readBits s'.operands.binIn 0 5 ≤ 7 := by
    rw [hbin]
    exact firstSymbol_decodeBin_le_seven _ hvalid
  refine ⟨_, exec_encode_ok s' hblen hfirst, rfl, fun k => ?_⟩
  rw [hbin]
  exact encodeText_decodeBin _ k (textCheck_ok_sym _ ((textCheck_eq_ok _).mpr hvalid) k)

end Sys2Proof.Machine
end

section
/-! PROOFS. EXTRACT_PARTITION (43_partition_extractor.md R170) and the partition read along the other path, off the bits
of the decoded binary (R172, R173). -/

namespace Sys2Proof.Machine

/-! The field of R70 that holds the partition: stream offsets 50 to 79, the low 30 bits of bytes 6 to 9. -/

/-- Consecutive bytes of a sequence are a slice of its number. -/
theorem be_take_drop (bs : List Byte) (k m : Nat) (h : k + m ≤ bs.length) :
    be ((bs.drop k).take m) = be bs / 2 ^ (8 * (bs.length - (k + m))) % 2 ^ (8 * m) := by
  have hmid : ((bs.drop k).take m).length = m := by rw [List.length_take, List.length_drop]; omega
  have hlow : be (bs.drop (k + m)) < 2 ^ (8 * (bs.length - (k + m))) := by
    simpa only [List.length_drop] using be_lt (bs.drop (k + m))
  have hfield : be ((bs.drop k).take m) < 2 ^ (8 * m) := by
    simpa only [hmid] using be_lt ((bs.drop k).take m)
  have hsplit : bs = bs.take k ++ (bs.drop k).take m ++ bs.drop (k + m) := by
    rw [List.append_assoc, ← List.drop_drop, List.take_append_drop, List.take_append_drop]
  have hbe : be bs = (be (bs.take k) * 2 ^ (8 * m) + be ((bs.drop k).take m)) * 2 ^ (8 * (bs.length - (k + m)))
      + be (bs.drop (k + m)) := by
    conv_lhs => rw [hsplit, be_append, be_append, hmid, List.length_drop]
  rw [hbe, Nat.add_comm, Nat.add_mul_div_right _ _ (Nat.two_pow_pos _), Nat.div_eq_of_lt hlow, Nat.zero_add,
    Nat.mul_add_mod_self_right, Nat.mod_eq_of_lt hfield]

theorem readBits_partition_eq_slice (b : Bytes 20) : readBits b 50 30 = be b.toList / 2 ^ 80 % 2 ^ 30 :=
  readBits_eq_slice b 50 30 (by omega)

/-- The mask of R172 drops the two padding bits before the partition. -/
theorem be_partitionField_mod (b : Bytes 20) : be ((b.toList.drop 6).take 4) % 2 ^ 30 = readBits b 50 30 := by
  have hfield := be_take_drop b.toList 6 4 (by simp)
  rw [Vector.length_toList] at hfield
  rw [hfield, readBits_partition_eq_slice]
  exact Nat.mod_mod_of_dvd _ (pow_dvd_pow 2 (by omega))

/-- The symbol path reads the bits that the decoded binary has at the partition's offsets: symbols 10 to 15, five bits
each. -/
theorem toNat_partitionOfText_eq_readBits (t : Bytes 32) :
    (partitionOfText t).toNat = readBits (decodeBin t) 50 30 := by
  have hsymbols : readBits (decodeBin t) 50 30 = readBits (decodeBin t) 50 (5 + 5 + 5 + 5 + 5 + 5) := rfl
  simp only [hsymbols, readBits_add, partitionOfText, toNat_append_eq_add, ← readBits_decodeBin]
  rfl

/-- The extracted partition of an encoded binary is the binary's partition field. -/
theorem toNat_partitionOfText_encodeText (b : Bytes 20) :
    (partitionOfText (encodeText b)).toNat = be b.toList / 2 ^ 80 % 2 ^ 30 := by
  rw [toNat_partitionOfText_eq_readBits, decodeBin_encodeText, readBits_partition_eq_slice]

/-! The commands. -/

theorem exec_extractPartition_ok (s : State) (h : TextValid s.operands) :
    exec .extractPartition s = .next { completed s with partOut := partitionBytes (partitionOfText s.operands.txtIn) } :=
  next_complete_of_ok (gated_of_textValid _ _ h)

/-- A PACK that raises no error had its partition in the domain, and leaves R131's number in BIN_OUT. -/
theorem be_binOut_of_exec_pack (s t : State) (h : exec .pack s = .next t) (herr : t.err = false)
    (hts : be s.operands.tsIn.toList < 2 ^ 48) :
    be s.operands.partIn.toList < 2 ^ 30 ∧
      be t.binOut.toList = be s.operands.tsIn.toList * 2 ^ 112 + be s.operands.partIn.toList * 2 ^ 80
        + be s.operands.randIn.toList := by
  obtain ⟨hin, hout, _⟩ := packCommand s
  by_cases hpart : be s.operands.partIn.toList < 2 ^ 30
  · obtain ⟨b, hb, hnumber⟩ := hin hpart hts
    obtain rfl := outcome_next_inj.mp (hb.symm.trans h)
    exact ⟨hpart, hnumber⟩
  · obtain rfl := outcome_next_inj.mp ((hout (Nat.not_lt.mp hpart)).symm.trans h)
    cases herr

/-- Settles O46: the text check is the gate before the partition of the symbol path. -/
theorem extractPartitionCommand : Obligations.ExtractPartitionCommand := by
  refine fun s => ⟨fun h => ⟨_, exec_extractPartition_ok s h, ?_⟩, next_complete_gated_of_textFaultAt s _⟩
  rw [be_partitionBytes, toNat_partitionOfText]

/-- Settles O53: both paths give the 30 bits from stream offset 50 of the decoded binary. -/
theorem extractionPathsAgree : Obligations.ExtractionPathsAgree :=
  fun o _ => (toNat_partitionOfText_eq_readBits o.txtIn).trans (be_partitionField_mod (decodeBin o.txtIn)).symm

/-- Settles O54: a timestamp below 2^46 leaves the packed number's first symbol in ENCODE's range, and the partition of
the encoding is the packed number's field. -/
theorem packedPartitionIsExtracted : Obligations.PackedPartitionIsExtracted := by
  intro s t h herr hts s' hblen hbin
  obtain ⟨hpart, hnumber⟩ := be_binOut_of_exec_pack s t h herr (by omega)
  have hrand := be_toList_lt s.operands.randIn
  have hfirst : readBits s'.operands.binIn 0 5 ≤ 7 := by
    rw [firstSymbol_le_seven_iff, hbin, hnumber]
    omega
  refine ⟨_, exec_encode_ok s' hblen hfirst, rfl, fun s'' htlen htext => ?_⟩
  refine ⟨_, exec_extractPartition_ok s'' (textValid_of_encodeText _ _ htlen htext hfirst), rfl, ?_⟩
  have hfield : be t.binOut.toList / 2 ^ 80 % 2 ^ 30 = be s.operands.partIn.toList := by omega
  rw [htext, be_partitionBytes, toNat_partitionOfText_encodeText, hbin, hfield]

end Sys2Proof.Machine
end

section
/-! PROOFS. The text check's verdicts, each with the candidates it is given to, and the two validator commands
(44_validator.md R180, R182, R183). -/

namespace Sys2Proof.Machine

/-! The text check. -/

theorem errCauseOf_injective : Function.Injective errCauseOf := by
  intro c c'
  cases c <;> cases c' <;> decide

/-- Of the characters without a symbol one stands first. -/
theorem exists_first_sym_eq_none (t : Bytes 32) (h : ∃ k : Fin 32, sym t[k] = none) :
    ∃ k : Fin 32, sym t[k] = none ∧ ∀ j : Fin 32, j < k → sym t[j] ≠ none := by
  obtain ⟨k, hbad, hmin⟩ := wellFounded_lt.has_min {k : Fin 32 | sym t[k] = none} h
  exact ⟨k, hbad, fun j hj hnone => hmin j hnone hj⟩

/-- The three faults leave no candidate out: the first of TextValid's conditions that fails gives the fault. -/
theorem textValid_or_textFaultAt (o : Operands) : TextValid o ∨ ∃ cause pos, TextFaultAt o cause pos := by
  by_cases hlen : o.tlen = 32
  · by_cases hfirst : 0x30 ≤ o.txtIn[0].toNat ∧ o.txtIn[0].toNat ≤ 0x37
    · by_cases hsym : ∀ k : Fin 32, sym o.txtIn[k] ≠ none
      · exact .inl ⟨hlen, hfirst, hsym⟩
      · obtain ⟨k, hbad, hmin⟩ := exists_first_sym_eq_none o.txtIn (not_forall_not.mp hsym)
        exact .inr ⟨_, _, .inr (.inr ⟨hlen, hfirst, k, hbad, hmin, rfl, rfl⟩)⟩
    · exact .inr ⟨_, _, .inr (.inl ⟨hlen, hfirst, rfl, rfl⟩)⟩
  · exact .inr ⟨_, _, .inl ⟨hlen, rfl, rfl⟩⟩

/-- The check reports exactly the candidate's fault: a rejected candidate is no TextId, so it has a fault, and that is
the one reported. -/
theorem textCheck_eq_bad (o : Operands) (cause : ErrCause) (pos : Byte) :
    textCheck o = .bad cause pos ↔ TextFaultAt o (errCauseOf cause) pos := by
  constructor
  · intro h
    rcases textValid_or_textFaultAt o with hvalid | ⟨code, pos', hfault⟩
    · cases h.symm.trans ((textCheck_eq_ok o).mpr hvalid)
    · obtain ⟨cause', rfl, hcheck⟩ := textCheck_of_textFaultAt o code pos' hfault
      cases h.symm.trans hcheck
      exact hfault
  · intro hfault
    obtain ⟨cause', hcode, hcheck⟩ := textCheck_of_textFaultAt o _ pos hfault
    rwa [errCauseOf_injective hcode] at hcheck

/-- Settles O49: both verdicts of the check, and TextValid with its faults exhausts the candidates. -/
theorem textCheckReportsFirstFault : Obligations.TextCheckReportsFirstFault :=
  fun o => ⟨textCheck_eq_ok o, textCheck_eq_bad o, textValid_or_textFaultAt o⟩

/-! The commands. Each writes RESULT and the zero error record alone, so what is left is its verdict. -/

/-- Settles O47: RESULT is the text check's verdict. -/
theorem validateTextCommand : Obligations.ValidateTextCommand := by
  refine fun s => ⟨fun h => ?_, fun h => ?_⟩
  · exact (exec_validateText_eq s true).mpr (beq_iff_eq.mpr ((textCheck_eq_ok _).mpr h))
  · exact (exec_validateText_eq s false).mpr (beq_eq_false_iff_ne.mpr (mt (textCheck_eq_ok _).mp h))

theorem toNat_eq_binBytes (v : Byte) : v.toNat = Config.binBytes ↔ v = 20 := BitVec.toNat_inj (y := 20)

/-- Settles O48: RESULT is the length comparison. -/
theorem validateBinaryCommand : Obligations.ValidateBinaryCommand := by
  refine fun s => ⟨fun h => ?_, fun h => ?_⟩
  · exact (exec_validateBinary_eq s true).mpr (beq_iff_eq.mpr ((toNat_eq_binBytes _).mpr h))
  · exact (exec_validateBinary_eq s false).mpr (beq_eq_false_iff_ne.mpr (mt (toNat_eq_binBytes _).mp h))

end Sys2Proof.Machine
end

section
/-! PROOFS. What the engine answers for a byte in OP (40_host_interface.md R105, R106): an outcome that depends on OP and
the operand registers alone (60_exceptions.md R207), the illegal one for a byte that is no command (R204). The error record
outside issues, completions and resets (R210). -/

namespace Sys2Proof.Machine

/-! The outcome as a function. -/

/-- The outcome of a command on the operand registers: what `exec` completes with. -/
def outcomeOf (i : Instr) (o : Operands) : CmdOutcome :=
  match i with
  | .pack => packCmd o
  | .packExample => packExampleCmd o
  | .packRoot => packRootCmd o
  | .packRelated => packRelatedCmd o
  | .randomPartition => randomPartitionCmd o
  | .encode => encodeCmd o
  | .decode => decodeCmd o
  | .zero => zeroCmd
  | .extractPartition => extractPartitionCmd o
  | .validateText => validateTextCmd o
  | .validateBinary => validateBinaryCmd o

theorem exec_eq_complete_outcomeOf (i : Instr) (s : State) :
    exec i s = .next (complete (outcomeOf i s.operands) s) := by
  cases i <;> rfl

/-- The outcome of a command byte, legal or not (60_exceptions.md R204). -/
def commandOutcome (op : Byte) (o : Operands) : CmdOutcome :=
  match decode op with
  | .ok i => outcomeOf i o
  | .error _ => illegalOutcome

theorem commandOutcome_of_decode_ok {op : Byte} {i : Instr} (h : decode op = .ok i) (o : Operands) :
    commandOutcome op o = outcomeOf i o := by
  rw [commandOutcome, h]

theorem commandOutcome_of_decode_error {op : Byte} {e : DecodeError} (h : decode op = .error e) (o : Operands) :
    commandOutcome op o = illegalOutcome := by
  rw [commandOutcome, h]

theorem engineStep_eq_complete (s : State) (hb : s.busy = true) :
    engineStep s = .next (complete (commandOutcome s.op s.operands) s) := by
  cases hd : decode s.op with
  | ok i => rw [engineStep_eq_exec s i hb hd, exec_eq_complete_outcomeOf, commandOutcome_of_decode_ok hd]
  | error e =>
    rw [commandOutcome_of_decode_error hd]
    simp [engineStep, fetched, hb, hd]

/-! The output registers after a completion. -/

theorem outputContents_complete (r : OutputReg) (o : CmdOutcome) (s : State) :
    outputContents r (complete o s) = outputContents r (applyWrites s o.writes) := by
  cases r <;> rfl

/-- A register that is written is written whole, so nothing of the state before is left in it. -/
theorem outputContents_applyWrites_of_target (w : Writes) (r : OutputReg) (h : w.target = some r) (s s' : State) :
    outputContents r (applyWrites s w) = outputContents r (applyWrites s' w) := by
  cases w with
  | none => cases h
  | binOut b | partOut b | txtOut b => cases h; rfl

/-- One outcome in two states either keeps an output register in both or makes it equal. -/
theorem outputContents_complete_kept_or_eq (r : OutputReg) (o : CmdOutcome) (s s' : State) :
    (outputContents r (complete o s) = outputContents r s ∧ outputContents r (complete o s') = outputContents r s') ∨
      outputContents r (complete o s) = outputContents r (complete o s') := by
  simp only [outputContents_complete]
  by_cases h : o.writes.target = some r
  · exact .inr (outputContents_applyWrites_of_target _ r h s s')
  · exact .inl ⟨applyWrites_outputContents s _ r h, applyWrites_outputContents s' _ r h⟩

/-- Settles O30: both states complete with the one outcome of OP and the operands. -/
theorem outcomeDependsOnlyOnOpAndOperands : Obligations.OutcomeDependsOnlyOnOpAndOperands := by
  intro s s' t t' hb hb' hop hoperands h h'
  obtain rfl := outcome_next_inj.mp ((engineStep_eq_complete s hb).symm.trans h)
  obtain rfl := outcome_next_inj.mp ((engineStep_eq_complete s' hb').symm.trans h')
  rw [← hop, ← hoperands]
  have hout (r : OutputReg) := outputContents_complete_kept_or_eq r (commandOutcome s.op s.operands) s s'
  refine ⟨rfl, rfl, rfl, rfl, rfl, ?_, ?_, ?_⟩
  · simpa only [outputContents, Vector.toList_inj] using hout .binOut
  · simpa only [outputContents, Vector.toList_inj] using hout .partOut
  · simpa only [outputContents, Vector.toList_inj] using hout .txtOut

/-! Illegal command bytes (30_encoding.md R93). -/

theorem encode_not_illegal (i : Instr) :
    ¬(encode i = 0x00 ∨ (0x06 ≤ (encode i).toNat ∧ (encode i).toNat ≤ 0x0F) ∨
      (0x13 ≤ (encode i).toNat ∧ (encode i).toNat ≤ 0x1F) ∨ (0x21 ≤ (encode i).toNat ∧ (encode i).toNat ≤ 0x2F) ∨
      0x32 ≤ (encode i).toNat) := by
  cases i <;> decide

theorem decode_eq_error_of_illegal (b : Byte)
    (h : b = 0x00 ∨ (0x06 ≤ b.toNat ∧ b.toNat ≤ 0x0F) ∨ (0x13 ≤ b.toNat ∧ b.toNat ≤ 0x1F) ∨
      (0x21 ≤ b.toNat ∧ b.toNat ≤ 0x2F) ∨ 0x32 ≤ b.toNat) : ∃ e, decode b = .error e := by
  cases hd : decode b with
  | error e => exact ⟨e, rfl⟩
  | ok i =>
    obtain rfl := encode_of_decode b i hd
    exact absurd h (encode_not_illegal i)

/-- Settles O37: the issue does not look at the byte, and a byte of the illegal ranges has the illegal outcome. -/
theorem illegalCommandCompletesWithError : Obligations.IllegalCommandCompletesWithError := by
  intro s b hb hillegal
  have hissue := commandIssueClearsErrorRecord s b hb
  obtain ⟨e, hd⟩ := decode_eq_error_of_illegal b hillegal
  refine ⟨hissue, complete illegalOutcome (issue s b), ?_, rfl, ?_⟩
  · have hout : commandOutcome (issue s b).op (issue s b).operands = illegalOutcome :=
      commandOutcome_of_decode_error hd _
    rw [hissue, ← hout]
    exact engineStep_eq_complete (issue s b) rfl
  · exact readByte_of_idle _ _ rfl

/-! The error record outside issue, completion and reset (R210). -/

theorem memWrite_errorRecord (s : State) (a v : Byte) (h : ¬(s.busy = false ∧ a = 0x00)) :
    (memWrite s a v).op = s.op ∧ (memWrite s a v).err = s.err ∧ (memWrite s a v).result = s.result ∧
      (memWrite s a v).errcode = s.errcode ∧ (memWrite s a v).errcause = s.errcause ∧
      (memWrite s a v).errpos = s.errpos := by
  rw [← locate_eq_cmd a] at h
  rcases memWrite_cases s a v with ⟨_, e⟩ | ⟨hb, hl, _⟩ | ⟨_, _, e⟩ | ⟨_, _, _, e⟩
  · simp [e]
  · exact absurd ⟨hb, hl⟩ h
  · simp [e]
  · simp [e]

/-- Settles O28: a completion keeps OP, and a write that is no issue, a read and a quiet turn keep the record too. -/
theorem errorRecordChangesOnlyByCommands : Obligations.ErrorRecordChangesOnlyByCommands := by
  intro s t h hreset hissue
  cases step_event s t h with
  | reset isReset _ => exact absurd (hreset.symm.trans isReset) Bool.false_ne_true
  | completion _ isCompletion _ o eq _ =>
    refine ⟨by rw [eq]; exact complete_op (turnTaken s) o, fun hc => ?_⟩
    exact absurd (hc.symm.trans isCompletion) Bool.false_ne_true
  | write _ _ a v tx ho eq =>
    have hkept : ¬((turnTaken s).busy = false ∧ a = 0x00) := by
      rintro ⟨hb, rfl⟩
      exact hissue ⟨hb, v, tx⟩
    obtain ⟨hop, hrecord⟩ := memWrite_errorRecord (turnTaken s) a v hkept
    rw [eq]
    exact ⟨hop, fun _ => hrecord⟩
  | read _ _ _ _ _ _ _ eq => simp [eq]
  | quiet _ _ _ _ eq => simp [eq]

end Sys2Proof.Machine
end

section
/-! PROOFS. Every command byte has a well-formed outcome: an error triple of 60_exceptions.md R203's table, or a success
whose output is in the register's form (10_state.md R41; 42_transcoder.md R157). The invariant and the table of
completions follow. -/

namespace Sys2Proof.Machine

/-! Outputs in their registers' form. -/

/-- What a command may write: PART_OUT below 2^30 (10_state.md R41), TXT_OUT canonical (42_transcoder.md R157). -/
def Writes.WellFormed : Writes → Prop
  | .none | .binOut _ => True
  | .partOut b => be b.toList < 2 ^ 30
  | .txtOut t => isCanonicalText t = true

theorem lower_chr : ∀ x : Symbol, lower (chr x) = chr x := by decide

theorem isCanonicalText_encodeText (b : Bytes 20) (h : readBits b 0 5 ≤ 7) : isCanonicalText (encodeText b) = true := by
  have hfirst : firstCharOk (encodeText b)[0] = true := by
    rw [firstCharOk_encodeText]
    exact decide_eq_true h
  rw [isCanonicalText, hfirst, Bool.true_and, List.all_eq_true]
  intro c hc
  obtain ⟨k, hk, rfl⟩ := Vector.mem_iff_getElem.mp (Vector.mem_toList_iff.mp hc)
  simp [encodeText_getElem b k hk, sym_chr, lower_chr]

theorem partOut_partitionBytes_wellFormed (p : BitVec 30) : (Writes.partOut (partitionBytes p)).WellFormed := by
  rw [Writes.WellFormed, be_partitionBytes]
  exact p.isLt

/-! Outcomes. -/

/-- An outcome a completion may have: its triple is one of R203's, and what it writes is well-formed. -/
structure CmdOutcome.WellFormed (o : CmdOutcome) : Prop where
  record : legalErrorRecord (errcodeAfter o) (errcauseAfter o) (errposAfter o) = true
  writes : o.writes.WellFormed

/-- Success has the zero triple. -/
theorem ok_wellFormed (r : Bool) {w : Writes} (h : w.WellFormed) : (CmdOutcome.ok r w).WellFormed := ⟨rfl, h⟩

/-- Failure writes no output. -/
theorem fail_wellFormed {k : ErrKind} {c : ErrCause} {p : Byte}
    (h : legalErrorRecord (errCodeOf k) (errCauseOf c) p = true) : (CmdOutcome.fail k c p).WellFormed := ⟨h, trivial⟩

/-- A text fault has a triple of the table; an alphabet fault is at one of the positions 1 to 31, since a first character
`0`–`7` has a symbol. -/
theorem legalErrorRecord_of_textFaultAt (o : Operands) (cause pos : Byte) (h : TextFaultAt o cause pos) :
    legalErrorRecord 2 cause pos = true := by
  rcases h with ⟨_, rfl, rfl⟩ | ⟨_, _, rfl, rfl⟩ | ⟨_, hfirst, k, hbad, _, rfl, rfl⟩
  · rfl
  · rfl
  · have hk : k ≠ 0 := by
      rintro rfl
      have hany := sym_of_firstCharOk o.txtIn[(0 : Fin 32)] (decide_eq_true hfirst)
      rw [hbad] at hany
      cases hany
    have hpos : 1 ≤ (BitVec.ofNat 8 k.val).toNat ∧ (BitVec.ofNat 8 k.val).toNat ≤ 31 := by
      have hk0 := Fin.val_ne_of_ne hk
      rw [BitVec.toNat_ofNat, Nat.mod_eq_of_lt (by omega)]
      exact ⟨Nat.pos_of_ne_zero hk0, by omega⟩
    exact decide_eq_true hpos

theorem gated_wellFormed (o : Operands) {cmd : CmdOutcome} (h : cmd.WellFormed) : (gated o cmd).WellFormed := by
  rcases gated_cases o cmd with ⟨_, e⟩ | ⟨c, p, hcheck, e⟩ <;> rw [e]
  · exact h
  · exact fail_wellFormed (legalErrorRecord_of_textFaultAt o _ p ((textCheck_eq_bad o c p).mp hcheck))

theorem packWithTimestamp_wellFormed (o : Operands) (p : BitVec 30) : (packWithTimestamp o p).WellFormed := by
  unfold packWithTimestamp
  split
  · exact ok_wellFormed _ trivial
  · exact fail_wellFormed rfl

theorem packCmd_wellFormed (o : Operands) : (packCmd o).WellFormed := by
  unfold packCmd
  split
  · exact packWithTimestamp_wellFormed o _
  · exact fail_wellFormed rfl

theorem encodeCmd_wellFormed (o : Operands) : (encodeCmd o).WellFormed := by
  unfold encodeCmd
  split
  · exact fail_wellFormed rfl
  split
  · exact fail_wellFormed rfl
  · exact ok_wellFormed _ (isCanonicalText_encodeText o.binIn (Nat.not_lt.mp ‹_›))

theorem zeroCmd_wellFormed : zeroCmd.WellFormed := by
  have hcanonical : isCanonicalText zeroText = true := by
    rw [← encodeText_zero]
    exact isCanonicalText_encodeText _ (by decide)
  exact ok_wellFormed _ hcanonical

theorem outcomeOf_wellFormed (i : Instr) (o : Operands) : (outcomeOf i o).WellFormed := by
  cases i with
  | pack => exact packCmd_wellFormed o
  | packExample => exact ok_wellFormed _ trivial
  | packRoot => exact packWithTimestamp_wellFormed o _
  | packRelated => exact gated_wellFormed o (packWithTimestamp_wellFormed o _)
  | randomPartition => exact ok_wellFormed _ (partOut_partitionBytes_wellFormed _)
  | encode => exact encodeCmd_wellFormed o
  | decode => exact gated_wellFormed o (ok_wellFormed _ trivial)
  | zero => exact zeroCmd_wellFormed
  | extractPartition => exact gated_wellFormed o (ok_wellFormed _ (partOut_partitionBytes_wellFormed _))
  | validateText => exact ok_wellFormed _ trivial
  | validateBinary => exact ok_wellFormed _ trivial

theorem commandOutcome_wellFormed (op : Byte) (o : Operands) : (commandOutcome op o).WellFormed := by
  cases hd : decode op with
  | ok i => rw [commandOutcome_of_decode_ok hd]; exact outcomeOf_wellFormed i o
  | error e => rw [commandOutcome_of_decode_error hd]; exact fail_wellFormed rfl

/-- What the engine's turn leaves behind a command in flight, said once for the statements below. -/
theorem engineStep_completes (s t : State) (hb : s.busy = true) (h : engineStep s = .next t) :
    ∃ o : CmdOutcome, o.WellFormed ∧ t = complete o s :=
  ⟨_, commandOutcome_wellFormed s.op s.operands, outcome_next_inj.mp (h.symm.trans (engineStep_eq_complete s hb))⟩

/-! The table of triples (R203). -/

theorem errCodeOf_ne_zero (k : ErrKind) : errCodeOf k ≠ 0 := by
  cases k <;> decide

/-- The table, row by row: no failure, the rows at position 0, the row of the alphabet check. -/
theorem legalErrorRecord_cases (code cause pos : Byte) (h : legalErrorRecord code cause pos = true) :
    code = 0 ∨
    (code, cause, pos) ∈
      ([(1, 1, 0), (1, 4, 0), (2, 1, 0), (2, 2, 0), (3, 5, 0), (4, 5, 0), (5, 6, 0)] : List (Byte × Byte × Byte)) ∨
    (code = 2 ∧ cause = 3 ∧ 1 ≤ pos.toNat ∧ pos.toNat ≤ 31) := by
  unfold legalErrorRecord at h
  split at h <;> simp_all [← BitVec.toNat_inj]

/-- Settles O29: a completion's outcome is well-formed, and a failure's code is not 0. -/
theorem completionsWriteLegalTriples : Obligations.CompletionsWriteLegalTriples := by
  intro s t hb h
  obtain ⟨o, hwf, rfl⟩ := engineStep_completes s t hb h
  refine ⟨complete_operands s o, ?_⟩
  cases o with
  | ok r w => exact .inl ⟨rfl, rfl, rfl, rfl⟩
  | fail k c p =>
    refine .inr ⟨rfl, rfl, rfl, rfl, rfl, ?_⟩
    exact (legalErrorRecord_cases _ _ _ hwf.record).resolve_left (errCodeOf_ne_zero k)

/-! The invariant, event by event. -/

theorem errorRecordOk_of_zero (s : State) (herr : s.err = false) (hcode : s.errcode = 0) (hcause : s.errcause = 0)
    (hpos : s.errpos = 0) (hresult : s.busy = true → s.result = false) : errorRecordOk s = true := by
  have hzero : legalErrorRecord 0#8 0#8 0#8 = true := rfl
  have hclear : s.busy = false ∨ s.result = false := by
    cases hb : s.busy with
    | false => exact .inl rfl
    | true => exact .inr (hresult hb)
  simpa [errorRecordOk, herr, hcode, hcause, hpos, hzero] using hclear

theorem errorRecordOk_complete (o : CmdOutcome) (s : State) (h : o.WellFormed) : errorRecordOk (complete o s) = true := by
  cases o with
  | ok r w => exact errorRecordOk_of_zero _ rfl rfl rfl rfl fun hb => absurd hb Bool.false_ne_true
  | fail k c p =>
    have hlegal : legalErrorRecord (errCodeOf k) (errCauseOf c) p = true := h.record
    have hcode : (errCodeOf k != 0) = true := bne_iff_ne.mpr (errCodeOf_ne_zero k)
    rw [complete_fail, errorRecordOk, failed_errcode, failed_errcause, failed_errpos, hlegal, hcode]
    rfl

theorem outputsOk_applyWrites (w : Writes) (s : State) (hw : w.WellFormed) (h : outputsOk s = true) :
    outputsOk (applyWrites s w) = true := by
  simp only [outputsOk, Bool.and_eq_true, Bool.or_eq_true, decide_eq_true_eq] at h ⊢
  obtain ⟨hpart, htxt⟩ := h
  cases w with
  | none | binOut _ => exact ⟨hpart, htxt⟩
  | partOut b => exact ⟨hw, htxt⟩
  | txtOut t => exact ⟨hpart, .inr hw⟩

theorem complete_inv (o : CmdOutcome) (s : State) (ho : o.WellFormed) (h : s.Inv) : (complete o s).Inv := by
  obtain ⟨_, houtputs⟩ := h
  exact ⟨errorRecordOk_complete o s ho, outputsOk_applyWrites o.writes s ho.writes houtputs⟩

/-- Only an issue touches what the invariant speaks of, and it clears the record. -/
theorem memWrite_inv (s : State) (a v : Byte) (h : s.Inv) : (memWrite s a v).Inv := by
  obtain ⟨hrecord, houtputs⟩ := h
  rcases memWrite_cases s a v with ⟨_, e⟩ | ⟨_, _, e⟩ | ⟨_, _, e⟩ | ⟨_, _, _, e⟩ <;> rw [e]
  · exact ⟨hrecord, houtputs⟩
  · exact ⟨errorRecordOk_of_zero _ rfl rfl rfl rfl fun _ => rfl, houtputs⟩
  · exact ⟨hrecord, houtputs⟩
  · exact ⟨hrecord, houtputs⟩

theorem outputsOk_reset : outputsOk State.reset = true := by decide

theorem resetBlock_inv (s : State) : (resetBlock s).Inv :=
  ⟨errorRecordOk_of_zero _ rfl rfl rfl rfl fun _ => rfl, outputsOk_reset⟩

/-- Settles O32: a completion's outcome is well-formed, a write keeps the record or issues, a reset starts over, and no
other event reaches the record or an output register. -/
theorem stepKeepsInvariant : Obligations.StepKeepsInvariant := by
  intro s t hinv h
  cases step_event s t h with
  | reset _ eq => rw [eq]; exact resetBlock_inv (turnTaken s)
  | completion _ isCompletion _ _ _ engine =>
    have hb : (turnTaken s).busy = true := (Bool.and_eq_true_iff.mp isCompletion).1
    obtain ⟨o, hwf, rfl⟩ := engineStep_completes (turnTaken s) t hb engine
    exact complete_inv o (turnTaken s) hwf hinv
  | write _ _ a v _ ho eq => rw [eq]; exact memWrite_inv (turnTaken s) a v hinv
  | read _ _ _ _ _ _ _ eq => rw [eq]; exact hinv
  | quiet _ _ _ _ eq => rw [eq]; exact hinv

end Sys2Proof.Machine
end

section
/-! PROOFS. Reset and the command in flight (70_reset_and_hazards.md R230, R245): what a reset leaves, and when BUSY is
cleared. -/

namespace Sys2Proof.Machine

/-! The state after reset. -/

/-- Settles O33: the error record is clear, and so are the output registers. -/
theorem resetHasInvariant : Obligations.ResetHasInvariant := resetBlock_inv State.reset

theorem registerByte_resetBlock (s : State) (l : Location) : registerByte (resetBlock s) l = 0x00 := by
  have hsame : registerByte (resetBlock s) l = registerByte State.reset l := by cases l <;> rfl
  exact hsame.trans (registerByte_reset l)

/-! The events that clear BUSY. -/

theorem nextTurn_of_nextIsCompletion {s : State} (h : nextIsCompletion s = true) : nextTurn s = .engine :=
  beq_iff_eq.mp (Bool.and_eq_true_iff.mp h).2

/-- `busySetByIssueClearedByCompletion` for a command in flight (10_state.md R24). -/
theorem busy_cleared_iff {s t : State} (h : step s = .next t) (hb : s.busy = true) :
    t.busy = false ↔ nextIsReset s = true ∨ nextIsCompletion s = true := by
  have hkept : t.busy = true ↔ nextIsReset s = false ∧ nextIsCompletion s = false :=
    (busySetByIssueClearedByCompletion s t h).trans (by simp [hb])
  rw [← Bool.not_eq_true, hkept, not_and_or, Bool.not_eq_false, Bool.not_eq_false]

/-- Settles O35: the edge is `resetBlock`, whose registers are those of the reset state, and the rule for BUSY names the
two events that clear it. -/
theorem resetClearsEveryRegister : Obligations.ResetClearsEveryRegister := by
  intro p s hrst
  rw [clockEdge_of_rst p s hrst]
  refine ⟨rfl, fun a => ?_, rfl, rfl, fun t t' h hb => (busy_cleared_iff h hb).mp⟩
  exact (readByte_of_idle _ a rfl).trans (registerByte_resetBlock s _)

/-! The command in flight until BUSY is cleared (R245). -/

/-- Every event uses up one entry of the schedule. -/
theorem step_schedule {s t : State} (h : step s = .next t) : t.schedule = s.schedule.tail := by
  cases step_event s t h with
  | reset _ eq => rw [eq]; rfl
  | completion _ _ _ o eq _ => rw [eq]; exact complete_schedule (turnTaken s) o
  | write _ _ a v _ ho eq =>
    obtain ⟨_, _, _, _, _, _, hschedule⟩ := memWrite_frame (turnTaken s) a v
    rw [eq]
    exact hschedule
  | read _ _ _ _ _ _ _ eq => rw [eq]; rfl
  | quiet _ _ _ _ eq => rw [eq]; rfl

/-- No event but a reset or the completion touches a command in flight or its operands (R24, R45, R210). -/
theorem step_keeps_command_in_flight {s t : State} (h : step s = .next t) (hb : s.busy = true)
    (hr : ¬nextIsReset s = true) (hc : ¬nextIsCompletion s = true) :
    t.busy = true ∧ t.op = s.op ∧ t.operands = s.operands := by
  have hnotIdle : s.busy ≠ false := ne_false_of_eq_true hb
  obtain ⟨_, hoperands⟩ := operandsChangeOnlyByHostWrites
  refine ⟨Bool.eq_true_of_not_eq_false (mt (busy_cleared_iff h hb).mp (not_or.mpr ⟨hr, hc⟩)), ?_, ?_⟩
  · exact (errorRecordChangesOnlyByCommands s t h (Bool.eq_false_iff.mpr hr) fun hissue => hnotIdle hissue.1).1
  · by_contra hne
    rcases hoperands s t h hne with hreset | ⟨hidle, _⟩
    · exact hr hreset
    · exact hnotIdle hidle

/-- Past the end of the schedule the engine moves (notes/assumptions/2.md). -/
theorem nextIsCompletion_of_schedule_nil {s : State} (hb : s.busy = true) (hs : s.schedule = []) :
    nextIsCompletion s = true := by
  simp [nextIsCompletion, nextTurn, defaultTurn, hs, hb]

/-- A reset comes from the schedule: past its end no turn drives the pins. -/
theorem exists_rst_of_nextIsReset {s : State} (h : nextIsReset s = true) :
    ∃ p : Pins, .pins p ∈ s.schedule ∧ p.rst = true := by
  cases hs : s.schedule with
  | nil => cases hb : s.busy <;> simp [nextIsReset, nextTurn, defaultTurn, hs, hb] at h
  | cons turn rest =>
    cases turn with
    | pins p => exact ⟨p, List.mem_cons_self, by simpa [nextIsReset, nextTurn, hs] using h⟩
    | host | engine => simp [nextIsReset, nextTurn, hs] at h

/-- Settles O34, by induction on the schedule: the next event clears BUSY, or keeps the command in flight and leaves a
shorter schedule. -/
theorem issuedCommandCompletesOrIsReset : Obligations.IssuedCommandCompletesOrIsReset := by
  intro s hb
  obtain ⟨t, h⟩ := everyStepAnswersANextState s
  induction hs : s.schedule generalizing s t with
  | nil =>
    have hc := nextIsCompletion_of_schedule_nil hb hs
    exact ⟨0, s, t, le_rfl, rfl, hb, rfl, rfl, h, (busy_cleared_iff h hb).mpr (.inr hc), .inl hc, fun _ => hc⟩
  | cons turn rest ih =>
    by_cases hc : nextIsCompletion s = true
    · exact ⟨0, s, t, Nat.zero_le _, rfl, hb, rfl, rfl, h, (busy_cleared_iff h hb).mpr (.inr hc), .inl hc, fun _ => hc⟩
    by_cases hr : nextIsReset s = true
    · obtain ⟨p, hmem, hrst⟩ := exists_rst_of_nextIsReset hr
      rw [hs] at hmem
      exact ⟨0, s, t, Nat.zero_le _, rfl, hb, rfl, rfl, h, (busy_cleared_iff h hb).mpr (.inl hr),
        .inr ⟨hr, p, hmem, hrst⟩, fun hnone => absurd ((hnone p hmem).symm.trans hrst) Bool.false_ne_true⟩
    · obtain ⟨hb', hop', hoperands'⟩ := step_keeps_command_in_flight h hb hr hc
      have hs' : t.schedule = rest := by rw [step_schedule h, hs, List.tail_cons]
      obtain ⟨t', h'⟩ := everyStepAnswersANextState t
      obtain ⟨k, u, v, hk, hrun, hbu, hop, hoperands, hstep, hbv, hend, hcomplete⟩ := ih t hb' t' h' hs'
      have hlater (p : Pins) (hmem : .pins p ∈ rest) : .pins p ∈ turn :: rest := List.mem_cons_of_mem turn hmem
      exact ⟨k + 1, u, v, Nat.succ_le_succ hk, (core_run_succ k s t h).trans hrun, hbu, hop.trans hop',
        hoperands.trans hoperands', hstep, hbv,
        hend.imp_right fun ⟨hreset, p, hmem, hrst⟩ => ⟨hreset, p, hlater p hmem, hrst⟩,
        fun hnone => hcomplete fun p hmem => hnone p (hlater p hmem)⟩

end Sys2Proof.Machine
end

section
/-! PROOFS. What an output register holds: its reset contents or a result (70_reset_and_hazards.md R233), after one event
and in a run from reset. -/

namespace Sys2Proof.Machine

/-! One event. -/

theorem eq_resetBlock_of_reset {s t : State} (h : step s = .next t) (hr : nextIsReset s = true) :
    t = resetBlock (turnTaken s) := by
  cases step_event s t h with
  | reset _ eq => exact eq
  | completion notReset | write notReset | read notReset | quiet notReset =>
    exact absurd (notReset.symm.trans hr) Bool.false_ne_true

/-- After reset OP is no command, so CMD and STATUS show no result, and each output register has its reset contents. -/
theorem resultHistory_resetBlock (r : OutputReg) (s : State) : ResultHistory r (resetBlock s) false where
  unwritten _ := by cases r <;> rfl
  canonical h := absurd h Bool.false_ne_true
  shown h := by cases r <;> cases h

theorem resultWritten_iff (r : OutputReg) (s t : State) :
    resultWritten r s t = true ↔
      (nextIsCompletion s = true ∧ t.err = false ∧ ∃ i, decode s.op = .ok i ∧ writesOutput i = some r) := by
  simp [resultWritten, ← opWrites_iff, and_assoc]

theorem statusShowsResult_iff (r : OutputReg) (s : State) :
    statusShowsResult r s = true ↔
      (s.busy = false ∧ s.err = false ∧ ∃ i, decode s.op = .ok i ∧ writesOutput i = some r) := by
  simp [statusShowsResult, ← opWrites_iff, and_assoc]

/-- The engine's turn is the one that completes. -/
theorem engineStep_of_nextIsCompletion {s t : State} (h : step s = .next t) (hc : nextIsCompletion s = true) :
    engineStep (turnTaken s) = .next t := by
  rwa [step, nextTurn_of_nextIsCompletion hc] at h

/-- R157 for the event that makes TXT_OUT a result: ENCODE or ZERO has completed with ERR = 0. -/
theorem isCanonicalText_of_resultWritten {s t : State} (h : step s = .next t)
    (hw : resultWritten .txtOut s t = true) : isCanonicalText t.txtOut = true := by
  obtain ⟨hc, herr, i, hd, hi⟩ := (resultWritten_iff _ s t).mp hw
  have hb : s.busy = true := (Bool.and_eq_true_iff.mp hc).1
  have hexec : exec i (turnTaken s) = .next t :=
    (engineStep_eq_exec (turnTaken s) i hb hd).symm.trans (engineStep_of_nextIsCompletion h hc)
  obtain ⟨b, htext, hfirst⟩ := txtOut_of_exec_encode_or_zero i (turnTaken s) t
    (by simpa using (writesOutput_eq_txtOut i).mp hi) hexec herr
  rw [htext]
  exact isCanonicalText_encodeText b hfirst

/-- R46 by the register's history: an event that is no reset and makes no result leaves the register as it was. -/
theorem outputContents_of_not_resultWritten {r : OutputReg} {s t : State} (h : step s = .next t)
    (hr : nextIsReset s = false) (hw : resultWritten r s t = false) : outputContents r t = outputContents r s := by
  by_contra hne
  have hwritten := (resultWritten_iff r s t).mpr (step_output_ne r s t h hr hne)
  exact Bool.false_ne_true (hw.symm.trans hwritten)

/-- What CMD and STATUS show after an event they showed before it, or the event made it (R114). -/
theorem statusShowsResult_after {r : OutputReg} {s t : State} (h : step s = .next t) (hr : nextIsReset s = false)
    (hshown : statusShowsResult r t = true) : statusShowsResult r s = true ∨ resultWritten r s t = true := by
  obtain ⟨hb, herr, hop⟩ := (statusShowsResult_iff r t).mp hshown
  have hbusy := (not_congr (busySetByIssueClearedByCompletion s t h)).mp (Bool.eq_false_iff.mp hb)
  have hnoIssue : ¬(s.busy = false ∧ ∃ v, nextTx s = some (.write 0x00 v)) := fun hissue => hbusy ⟨hr, .inr hissue⟩
  obtain ⟨hsameOp, hrecord⟩ := errorRecordChangesOnlyByCommands s t h hr hnoIssue
  rw [hsameOp] at hop
  cases hc : nextIsCompletion s with
  | true => exact .inr ((resultWritten_iff r s t).mpr ⟨hc, herr, hop⟩)
  | false =>
    have hidle : s.busy = false := Bool.eq_false_iff.mpr fun hb => hbusy ⟨hr, .inl ⟨hb, hc⟩⟩
    obtain ⟨hsameErr, _⟩ := hrecord hc
    exact .inl ((statusShowsResult_iff r s).mpr ⟨hidle, hsameErr ▸ herr, hop⟩)

theorem holdsResultAfter_of_reset (r : OutputReg) {s : State} (t : State) (held : Bool) (hr : nextIsReset s = true) :
    holdsResultAfter r s t held = false := by
  simp [holdsResultAfter, hr]

theorem holdsResultAfter_of_not_reset (r : OutputReg) {s : State} (t : State) (held : Bool)
    (hr : nextIsReset s = false) : holdsResultAfter r s t held = (held || resultWritten r s t) := by
  simp [holdsResultAfter, hr]

/-- Settles O60: a reset starts the history over; any other event makes a result or leaves the register as it was. -/
theorem outputsHoldResetContentsUntilWritten : Obligations.OutputsHoldResetContentsUntilWritten := by
  refine fun r => ⟨resultHistory_resetBlock r State.reset, fun s t held hist h => ?_⟩
  cases hr : nextIsReset s with
  | true =>
    rw [holdsResultAfter_of_reset r t held hr, eq_resetBlock_of_reset h hr]
    exact resultHistory_resetBlock r (turnTaken s)
  | false =>
    rw [holdsResultAfter_of_not_reset r t held hr]
    refine ⟨fun hnone => ?_, fun hsome htxt => ?_, fun hshown => ?_⟩
    · obtain ⟨hheld, hw⟩ := Bool.or_eq_false_iff.mp hnone
      exact (outputContents_of_not_resultWritten h hr hw).trans (hist.unwritten hheld)
    · subst htxt
      cases hw : resultWritten .txtOut s t with
      | true => exact isCanonicalText_of_resultWritten h hw
      | false =>
        have hsame : t.txtOut = s.txtOut := Vector.toList_inj.mp (outputContents_of_not_resultWritten h hr hw)
        rw [hw, Bool.or_false] at hsome
        rw [hsame]
        exact hist.canonical hsome rfl
    · exact Bool.or_eq_true_iff.mpr ((statusShowsResult_after h hr hshown).imp_left hist.shown)

/-! Runs. -/

/-- No event ends a run, so every number of events leads to a state. -/
theorem core_run_answers (k : Nat) (s : State) : ∃ t : State, Sys2Proof.core.run k s = .next t := by
  induction k generalizing s with
  | zero => exact ⟨s, rfl⟩
  | succ k ih =>
    obtain ⟨u, h⟩ := everyStepAnswersANextState s
    obtain ⟨t, ht⟩ := ih u
    exact ⟨t, (core_run_succ k s u h).trans ht⟩

/-- None of the first `k` events from `s` is a reset. -/
def ResetFree (k : Nat) (s : State) : Prop :=
  ∀ (m : Nat) (w : State), m < k → Sys2Proof.core.run m s = .next w → nextIsReset w = false

/-- One of the first `k` events from `s` makes `r` a result, and none after it is a reset. -/
def WrittenWithin (r : OutputReg) (k : Nat) (s : State) : Prop :=
  ∃ (j : Nat) (u v : State), j < k ∧ Sys2Proof.core.run j s = .next u ∧ step u = .next v ∧
    nextIsCompletion u = true ∧ v.err = false ∧ (∃ i : Instr, decode u.op = .ok i ∧ writesOutput i = some r) ∧
    ∀ (m : Nat) (w : State), j < m → m < k → Sys2Proof.core.run m s = .next w → nextIsReset w = false

theorem resetFree_zero (s : State) : ResetFree 0 s := fun m _ hm => absurd hm (Nat.not_lt_zero m)

theorem resetFree_succ (k : Nat) {s t : State} (h : step s = .next t) :
    ResetFree (k + 1) s ↔ nextIsReset s = false ∧ ResetFree k t := by
  refine ⟨fun hfree => ⟨hfree 0 s k.succ_pos rfl, fun m w hm hrun => ?_⟩, fun ⟨hr, hfree⟩ m w hm hrun => ?_⟩
  · exact hfree (m + 1) w (Nat.succ_lt_succ hm) ((core_run_succ m s t h).trans hrun)
  · cases m with
    | zero => cases hrun; exact hr
    | succ m => exact hfree m w (Nat.lt_of_succ_lt_succ hm) ((core_run_succ m s t h).symm.trans hrun)

theorem not_writtenWithin_zero (r : OutputReg) (s : State) : ¬WrittenWithin r 0 s := by
  rintro ⟨j, _, _, hj, _⟩
  exact Nat.not_lt_zero j hj

/-- The event that makes the result is the first one, or it comes after it. -/
theorem writtenWithin_succ (r : OutputReg) (k : Nat) {s t : State} (h : step s = .next t) :
    WrittenWithin r (k + 1) s ↔ (resultWritten r s t = true ∧ ResetFree k t) ∨ WrittenWithin r k t := by
  rw [resultWritten_iff]
  constructor
  · rintro ⟨j, u, v, hj, hrun, hstep, hc, herr, hop, hfree⟩
    have hlater (m : Nat) (w : State) (hm : j < m + 1) (hk : m < k) (hw : Sys2Proof.core.run m t = .next w) :
        nextIsReset w = false := hfree (m + 1) w hm (Nat.succ_lt_succ hk) ((core_run_succ m s t h).trans hw)
    cases j with
    | zero =>
      cases hrun
      cases h.symm.trans hstep
      exact .inl ⟨⟨hc, herr, hop⟩, fun m w => hlater m w m.succ_pos⟩
    | succ j =>
      exact .inr ⟨j, u, v, Nat.lt_of_succ_lt_succ hj, (core_run_succ j s t h).symm.trans hrun, hstep, hc, herr, hop,
        fun m w hm => hlater m w (Nat.succ_lt_succ hm)⟩
  · rintro (⟨⟨hc, herr, hop⟩, hfree⟩ | ⟨j, u, v, hj, hrun, hstep, hc, herr, hop, hfree⟩)
    · refine ⟨0, s, t, k.succ_pos, rfl, h, hc, herr, hop, fun m w hm hk hw => ?_⟩
      obtain ⟨m, rfl⟩ := Nat.exists_eq_succ_of_ne_zero hm.ne'
      exact hfree m w (Nat.lt_of_succ_lt_succ hk) ((core_run_succ m s t h).symm.trans hw)
    · refine ⟨j + 1, u, v, Nat.succ_lt_succ hj, (core_run_succ j s t h).trans hrun, hstep, hc, herr, hop,
        fun m w hm hk hw => ?_⟩
      obtain ⟨m, rfl⟩ := Nat.exists_eq_succ_of_ne_zero (Nat.ne_zero_of_lt hm)
      exact hfree m w (Nat.lt_of_succ_lt_succ hm) (Nat.lt_of_succ_lt_succ hk) ((core_run_succ m s t h).symm.trans hw)

theorem nextIsReset_of_resultWritten {r : OutputReg} {s t : State} (h : resultWritten r s t = true) :
    nextIsReset s = false := by
  obtain ⟨hc, _⟩ := (resultWritten_iff r s t).mp h
  rw [nextIsReset, nextTurn_of_nextIsCompletion hc]

theorem holdsResult_succ (r : OutputReg) (k : Nat) {s t : State} (held : Bool) (h : step s = .next t) :
    holdsResult r (k + 1) s held = holdsResult r k t (holdsResultAfter r s t held) := by
  rw [holdsResult, h]

/-- A result held before the run is kept by a run without reset; any other is made in the run. -/
theorem holdsResult_iff (r : OutputReg) (k : Nat) (s : State) (held : Bool) :
    holdsResult r k s held = true ↔ (held = true ∧ ResetFree k s) ∨ WrittenWithin r k s := by
  induction k generalizing s held with
  | zero => simp [holdsResult, resetFree_zero, not_writtenWithin_zero]
  | succ k ih =>
    obtain ⟨t, h⟩ := everyStepAnswersANextState s
    have hnotReset : resultWritten r s t = true → nextIsReset s = false := nextIsReset_of_resultWritten
    rw [holdsResult_succ r k held h, ih, holdsResultAfter_iff, ← resultWritten_iff, resetFree_succ k h,
      writtenWithin_succ r k h]
    tauto

/-- A register is ready exactly if it holds a result made in the run and the block is idle. -/
theorem resultReady_iff (r : OutputReg) (k : Nat) (s : State) :
    resultReady r k s = true ↔
      (∃ t : State, Sys2Proof.core.run k s = .next t ∧ t.busy = false) ∧ WrittenWithin r k s := by
  obtain ⟨t, ht⟩ := core_run_answers k s
  have hidle : (∃ t : State, Sys2Proof.core.run k s = .next t ∧ t.busy = false) ↔ t.busy = false := by
    refine ⟨fun ⟨t', ht', hb⟩ => ?_, fun hb => ⟨t, ht, hb⟩⟩
    cases ht.symm.trans ht'
    exact hb
  rw [hidle, resultReady, ht, Bool.and_eq_true, holdsResult_iff, and_comm]
  simp

/-! The reset contents themselves. -/

/-- No TextId begins with 0x00. -/
theorem not_textValid_of_reset_txtOut (o : Operands) (h : o.txtIn = State.reset.txtOut) : ¬TextValid o := by
  rintro ⟨_, ⟨hfirst, _⟩, _⟩
  have hzero : o.txtIn[0].toNat = 0 := by rw [h]; rfl
  omega

/-- Settles O59: the reset contents are judged by the commands' own statements, and a run from reset begins without a
result. -/
theorem resetContentsAreNotResults : Obligations.ResetContentsAreNotResults := by
  refine ⟨⟨rfl, rfl, not_textValid_of_reset_txtOut⟩, ⟨rfl, fun s hlen _ => ?_⟩, ⟨rfl, by decide⟩, ⟨rfl, fun _ => rfl⟩, ?_⟩
  · exact (validateBinaryCommand s).1 hlen
  · exact fun h sch r k => resultReady_iff r k { State.reset with host := h, schedule := sch }

end Sys2Proof.Machine
end
